-- ==== Sys2Proof/Word.lean ====
section
/-!
DEFINITION. The word types of the block: a byte, a report, a 5-bit operation code (spec 00_scope R10, 20_memory R67,
30_encoding R96).
-/

namespace Sys2Proof

/-- 8 bits; bit 0 is the least significant (00_scope R10). Key codes, masks, report ids and payload bytes are bytes. -/
abbrev Byte := BitVec 8

/-- The 8-byte HID Input Report as a 64-bit register value (20_memory R67, 30_encoding R90). -/
abbrev Report := BitVec 64

/-- An operation code `op[4:0]` (30_encoding R96). -/
abbrev OpCode := BitVec 5

/-- The address of a matrix cell: (column, row) (00_scope R11). -/
abbrev Cell := Nat × Nat

/-- An array of `ncols x nrows` values, column-major: a column is its rows. Every matrix and every table is typed by the one
pair (00_scope R8 b, R11, 70 R273), so that one of another shape cannot be written. -/
abbrev Grid (α : Type) (ncols nrows : Nat) := Vector (Vector α nrows) ncols

/-- A matrix of logical levels (00_scope R11). -/
abbrev Matrix (ncols nrows : Nat) := Grid Bool ncols nrows

end Sys2Proof
end

