-- ==== Sys2Proof/Syntax.lean ====
section
/-!
DEFINITION. The operations of the block as syntax: report types, push results, host requests, the moves of the agents,
the labels of the microprogram, the 23 micro-operations and `Instr`, one constructor per row of spec/opcode_table.json.
-/

namespace Sys2Proof

/-- A report type (30_encoding R91, decision D24): the source names Input and Output and speaks of "any other". -/
inductive RType where
  | input
  | output
  | other (n : Byte)
deriving DecidableEq, Repr, Inhabited

/-- The kinds of a hard transport failure (30_encoding R94). -/
inductive HardKind where
  | parseError
  | overflow
  | invalidEndpoint
  | unsupportedOp
  | invalidState
deriving DecidableEq, Repr, Inhabited

/-- Format PUSHRES, the result of `XPORT.push` (30_encoding R94). -/
inductive PushRes where
  | ok
  | wouldBlock
  | hard (kind : HardKind)
deriving DecidableEq, Repr, Inhabited

/-- Format REQ, a host request with its arguments (30_encoding R91, 44 R187). -/
inductive Request where
  | getReport (type : RType) (id : Byte)
  | setReport (type : RType) (id : Byte) (payload : List Byte)
  | getDescriptor
deriving DecidableEq, Repr, Inhabited

/-- One atomic step of one agent (00_scope R9): the poll context's next operation, the three kinds of step of the
interrupt context, and the two moves of the environment (45 R222). -/
inductive Move where
  | poll
  | irqEnter
  | irqExit
  | request (r : Request)
  | raiseIrq
  | tick
deriving DecidableEq, Repr, Inhabited

/-- The 20 labels of the microprogram (10_state R31). -/
inductive Label where
  | sAssert | sSettle1 | sSample | sDeassert | sSettle2 | sNext | sPump
  | bCheck | bEnter | bArm
  | lWait | lLayer | lEncInit | lEncCell | lEncDone | lCsEnter | lCommit | lPush | lCsExit | lRearm
deriving DecidableEq, Repr, Inhabited

/-- The 23 micro-operations of the operation maps (30_encoding R97, R98). -/
inductive Uop where
  | colAssert | settle | rowSample | colDeassert | colNext | dbfPump
  | bootCheck | bootEnter | tmrArm | tmrWait | layerSel
  | encInit | encCell | encDone | csEnter | commit | push | csExit
  | irqEnter | getReport | setReport | getDescriptor | irqExit
deriving DecidableEq, Repr, Inhabited

/-- One constructor per row of spec/opcode_table.json, in the table's order. Operands are implicit in the state (30 R96)
but for the push result's kind (format PUSHRES) and the host requests' arguments (format REQ). -/
inductive Instr where
  | colAssert
  | settle
  | rowSample
  | colDeassert
  | colNext
  | dbfPump
  | bootCheck
  | bootEnter
  | tmrArmFirst
  | tmrArmPeriod
  | tmrWait
  | layerSel
  | encInit
  | encCellSkip
  | encCellEmpty
  | encCellMod
  | encCellSent
  | encCellKey
  | encCellOvf
  | encDone
  | csEnter
  | commit
  | pushSuppress
  | pushOk
  | pushWouldBlock
  | pushHard (kind : HardKind)
  | csExit
  | irqEnter
  | getReportInput (id : Byte)
  | getReportUnsup (type : RType) (id : Byte)
  | setReportLed (payload : Byte)
  | setReportUnsup (type : RType) (id : Byte) (payload : List Byte)
  | getDescriptor
  | irqExit
deriving DecidableEq, Repr, Inhabited

end Sys2Proof
end

