-- ==== Sys2Proof/WellFormed.lean ====
section
/-!
DEFINITION. When an `Instr` term stands for an instruction of the table: a rejected request's arguments must be outside
the accepted combination (30_encoding R105). Every other constructor's operands are all legal.
-/

namespace Sys2Proof

/-- The one accepted combination of `set_report`: type Output, id 0, one payload byte (44 R183, 30_encoding R103). -/
def setReportAccepted (type : RType) (id : Byte) (payload : List Byte) : Bool :=
  decide (type = .output) && decide (id = 0) && decide (payload.length = 1)

/-- `GET_REPORT.UNSUP` has a type other than Input (44 R182); `SET_REPORT.UNSUP` is not the accepted combination
(44 R185). -/
def Instr.wf (i : Instr) : Bool :=
  match i with
  | .getReportUnsup type _ => decide (type ≠ .input)
  | .setReportUnsup type id payload => !setReportAccepted type id payload
  | .colAssert | .settle | .rowSample | .colDeassert | .colNext | .dbfPump | .bootCheck | .bootEnter
  | .tmrArmFirst | .tmrArmPeriod | .tmrWait | .layerSel | .encInit | .encCellSkip | .encCellEmpty
  | .encCellMod | .encCellSent | .encCellKey | .encCellOvf | .encDone | .csEnter | .commit
  | .pushSuppress | .pushOk | .pushWouldBlock | .pushHard _ | .csExit | .irqEnter | .getReportInput _
  | .setReportLed _ | .getDescriptor | .irqExit => true

end Sys2Proof
end

