-- ==== Sys2Proof/Decode.lean ====
section
/-!
DEFINITION. The decoder and the encoder of an instruction record. The 5-bit operation codes are 30_encoding R97 and R98,
the class codes R93, the result codes 60_exceptions R230. The record's layout around the code is the model's (DESIGN CHOICE,
log 8): byte 0 the code in bits 4:0, byte 1 the selector values (or the request's type tag), byte 2 the push result's code (or
the n of `Other n`), byte 3 the report id, then the payload bytes of `set_report`.
-/

namespace Sys2Proof

/-- Why a record of bytes is no instruction. -/
inductive DecodeError where
  /-- fewer than the four header bytes -/
  | truncated
  /-- bits 7:5 of byte 0 are not zero: a UOP has 5 bits (30_encoding R107) -/
  | wideCode (b : Byte)
  /-- the code names no operation (30_encoding R106) -/
  | illegalOp (op : OpCode)
  /-- selector values no row of the table has -/
  | reservedSelector (b : Byte)
  /-- a result code that is none of PUSHRES -/
  | reservedResult (b : Byte)
  /-- a type tag that is none of RType's three forms -/
  | reservedType (b : Byte)
  /-- operand bytes where the operation has none -/
  | strayOperand
deriving DecidableEq, Repr

/-- The operation code of a micro-operation (30_encoding R97, R98). -/
def Uop.code (u : Uop) : OpCode :=
  match u with
  | .colAssert => 0b00001
  | .settle => 0b00010
  | .rowSample => 0b00011
  | .colDeassert => 0b00100
  | .colNext => 0b00101
  | .dbfPump => 0b00110
  | .bootCheck => 0b00111
  | .bootEnter => 0b01000
  | .tmrArm => 0b01001
  | .tmrWait => 0b01010
  | .layerSel => 0b01011
  | .encInit => 0b01100
  | .encCell => 0b01101
  | .encDone => 0b01110
  | .csEnter => 0b01111
  | .commit => 0b10000
  | .push => 0b10001
  | .csExit => 0b10010
  | .irqEnter => 0b11000
  | .getReport => 0b11001
  | .setReport => 0b11010
  | .getDescriptor => 0b11011
  | .irqExit => 0b11100

/-- The micro-operation a code names, none for the codes of 30_encoding R106. -/
def Uop.ofCode (op : OpCode) : Option Uop :=
  match op.toNat with
  | 1 => some .colAssert
  | 2 => some .settle
  | 3 => some .rowSample
  | 4 => some .colDeassert
  | 5 => some .colNext
  | 6 => some .dbfPump
  | 7 => some .bootCheck
  | 8 => some .bootEnter
  | 9 => some .tmrArm
  | 10 => some .tmrWait
  | 11 => some .layerSel
  | 12 => some .encInit
  | 13 => some .encCell
  | 14 => some .encDone
  | 15 => some .csEnter
  | 16 => some .commit
  | 17 => some .push
  | 18 => some .csExit
  | 24 => some .irqEnter
  | 25 => some .getReport
  | 26 => some .setReport
  | 27 => some .getDescriptor
  | 28 => some .irqExit
  | _ => none

/-- The selector byte of `TMR_ARM`: `p` in bit 0 (30_encoding R97). -/
def tmrSelector (p : Bool) : Byte := if p then 1 else 0

/-- The selector byte of `ENC_CELL`: `a` in bit 0, `cls` in bits 2:1, `f` in bit 3 (30_encoding R97). A selector that the
row does not use is 0. -/
def encSelector (a : Bool) (cls : BitVec 2) (f : Bool) : Byte :=
  (0 : BitVec 4) ++ BitVec.ofBool f ++ cls ++ BitVec.ofBool a

/-- The selector byte of `PUSH`: `ch` in bit 0 (30_encoding R97). -/
def pushSelector (ch : Bool) : Byte := if ch then 1 else 0

/-- The code of a hard failure's kind (60_exceptions R230). -/
def HardKind.code (k : HardKind) : Byte :=
  match k with
  | .parseError => 3
  | .overflow => 4
  | .invalidEndpoint => 5
  | .unsupportedOp => 6
  | .invalidState => 7

/-- The code of a push result: the error codes of 60_exceptions R230, and 0 for `Ok`. -/
def PushRes.code (r : PushRes) : Byte :=
  match r with
  | .ok => 0
  | .wouldBlock => 2
  | .hard k => k.code

/-- The push result a code names. -/
def PushRes.ofCode (b : Byte) : Option PushRes :=
  match b.toNat with
  | 0 => some .ok
  | 2 => some .wouldBlock
  | 3 => some (.hard .parseError)
  | 4 => some (.hard .overflow)
  | 5 => some (.hard .invalidEndpoint)
  | 6 => some (.hard .unsupportedOp)
  | 7 => some (.hard .invalidState)
  | _ => none

/-- The two bytes that carry a report type in a record: a tag and the n of `Other n` (log 8; no numeric report-type code of the
host, log 17). -/
def RType.tag (t : RType) : Byte × Byte :=
  match t with
  | .input => (0, 0)
  | .output => (1, 0)
  | .other n => (2, n)

/-- The report type two bytes carry. -/
def RType.ofTag (tag n : Byte) : Except DecodeError RType :=
  match tag.toNat with
  | 0 => if n = 0 then .ok .input else .error .strayOperand
  | 1 => if n = 0 then .ok .output else .error .strayOperand
  | 2 => .ok (.other n)
  | _ => .error (.reservedType tag)

/-- The row of `TMR_ARM` that its selector picks (30_encoding R97). -/
def decodeTmrArm (sel : Byte) : Except DecodeError Instr :=
  match sel.toNat with
  | 0 => .ok .tmrArmPeriod
  | 1 => .ok .tmrArmFirst
  | _ => .error (.reservedSelector sel)

/-- The row of `ENC_CELL` that its selectors pick (30_encoding R97). -/
def decodeEncCell (sel : Byte) : Except DecodeError Instr :=
  match sel.toNat with
  | 0b0000 => .ok .encCellSkip
  | 0b0001 => .ok .encCellEmpty
  | 0b0011 => .ok .encCellMod
  | 0b0101 => .ok .encCellSent
  | 0b0111 => .ok .encCellKey
  | 0b1111 => .ok .encCellOvf
  | _ => .error (.reservedSelector sel)

/-- The row of `PUSH` that its selectors pick (30_encoding R97). -/
def decodePush (sel res : Byte) : Except DecodeError Instr :=
  match sel.toNat with
  | 0 => if res = 0 then .ok .pushSuppress else .error .strayOperand
  | 1 =>
    match PushRes.ofCode res with
    | some .ok => .ok .pushOk
    | some .wouldBlock => .ok .pushWouldBlock
    | some (.hard k) => .ok (.pushHard k)
    | none => .error (.reservedResult res)
  | _ => .error (.reservedSelector sel)

/-- The row of `GET_REPORT`: the type decides (30_encoding R98, R103). -/
def classifyGet (type : RType) (id : Byte) : Instr :=
  if type = .input then .getReportInput id else .getReportUnsup type id

/-- The row of `SET_REPORT`: type, id and length decide (30_encoding R98, R103). -/
def classifySet (type : RType) (id : Byte) (payload : List Byte) : Instr :=
  match payload with
  | [b] => if type = .output ∧ id = 0 then .setReportLed b else .setReportUnsup type id payload
  | _ => .setReportUnsup type id payload

/-- `i`, if the operand bytes it does not have are absent or zero. -/
def bare (sel arg id : Byte) (payload : List Byte) (i : Instr) : Except DecodeError Instr :=
  if sel = 0 ∧ arg = 0 ∧ id = 0 ∧ payload = [] then .ok i else .error .strayOperand

/-- The instruction of a known operation with its operand bytes. -/
def decodeOperands (u : Uop) (sel arg id : Byte) (payload : List Byte) : Except DecodeError Instr :=
  match u with
  | .colAssert => bare sel arg id payload .colAssert
  | .settle => bare sel arg id payload .settle
  | .rowSample => bare sel arg id payload .rowSample
  | .colDeassert => bare sel arg id payload .colDeassert
  | .colNext => bare sel arg id payload .colNext
  | .dbfPump => bare sel arg id payload .dbfPump
  | .bootCheck => bare sel arg id payload .bootCheck
  | .bootEnter => bare sel arg id payload .bootEnter
  | .tmrArm => if arg = 0 ∧ id = 0 ∧ payload = [] then decodeTmrArm sel else .error .strayOperand
  | .tmrWait => bare sel arg id payload .tmrWait
  | .layerSel => bare sel arg id payload .layerSel
  | .encInit => bare sel arg id payload .encInit
  | .encCell => if arg = 0 ∧ id = 0 ∧ payload = [] then decodeEncCell sel else .error .strayOperand
  | .encDone => bare sel arg id payload .encDone
  | .csEnter => bare sel arg id payload .csEnter
  | .commit => bare sel arg id payload .commit
  | .push => if id = 0 ∧ payload = [] then decodePush sel arg else .error .strayOperand
  | .csExit => bare sel arg id payload .csExit
  | .irqEnter => bare sel arg id payload .irqEnter
  | .getReport =>
    if payload = [] then
      match RType.ofTag sel arg with
      | .ok type => .ok (classifyGet type id)
      | .error e => .error e
    else .error .strayOperand
  | .setReport =>
    match RType.ofTag sel arg with
    | .ok type => .ok (classifySet type id payload)
    | .error e => .error e
  | .getDescriptor => bare sel arg id payload .getDescriptor
  | .irqExit => bare sel arg id payload .irqExit

/-- The decoder: total on any bytes, rejecting by name. -/
def decode (bytes : List Byte) : Except DecodeError Instr :=
  match bytes with
  | b0 :: sel :: arg :: id :: payload =>
    if b0.extractLsb' 5 3 = 0 then
      match Uop.ofCode (b0.extractLsb' 0 5) with
      | some u => decodeOperands u sel arg id payload
      | none => .error (.illegalOp (b0.extractLsb' 0 5))
    else .error (.wideCode b0)
  | _ => .error .truncated

/-- Byte 0 of a record. -/
def opByte (u : Uop) : Byte := (0 : BitVec 3) ++ u.code

/-- A record of a micro-operation with its operand bytes. -/
def record (u : Uop) (sel arg id : Byte) (payload : List Byte) : List Byte :=
  opByte u :: sel :: arg :: id :: payload

/-- The record of a host request (30_encoding R96: "the same 5-bit code followed by the REQ arguments"). -/
def encodeRequest (r : Request) : List Byte :=
  match r with
  | .getReport type id => record .getReport type.tag.1 type.tag.2 id []
  | .setReport type id payload => record .setReport type.tag.1 type.tag.2 id payload
  | .getDescriptor => record .getDescriptor 0 0 0 []

/-- The encoder: the record of an instruction, written from 30_encoding R97 and R98. -/
def encode (i : Instr) : List Byte :=
  match i with
  | .colAssert => record .colAssert 0 0 0 []
  | .settle => record .settle 0 0 0 []
  | .rowSample => record .rowSample 0 0 0 []
  | .colDeassert => record .colDeassert 0 0 0 []
  | .colNext => record .colNext 0 0 0 []
  | .dbfPump => record .dbfPump 0 0 0 []
  | .bootCheck => record .bootCheck 0 0 0 []
  | .bootEnter => record .bootEnter 0 0 0 []
  | .tmrArmFirst => record .tmrArm (tmrSelector true) 0 0 []
  | .tmrArmPeriod => record .tmrArm (tmrSelector false) 0 0 []
  | .tmrWait => record .tmrWait 0 0 0 []
  | .layerSel => record .layerSel 0 0 0 []
  | .encInit => record .encInit 0 0 0 []
  | .encCellSkip => record .encCell (encSelector false 0b00 false) 0 0 []
  | .encCellEmpty => record .encCell (encSelector true 0b00 false) 0 0 []
  | .encCellMod => record .encCell (encSelector true 0b01 false) 0 0 []
  | .encCellSent => record .encCell (encSelector true 0b10 false) 0 0 []
  | .encCellKey => record .encCell (encSelector true 0b11 false) 0 0 []
  | .encCellOvf => record .encCell (encSelector true 0b11 true) 0 0 []
  | .encDone => record .encDone 0 0 0 []
  | .csEnter => record .csEnter 0 0 0 []
  | .commit => record .commit 0 0 0 []
  | .pushSuppress => record .push (pushSelector false) 0 0 []
  | .pushOk => record .push (pushSelector true) PushRes.ok.code 0 []
  | .pushWouldBlock => record .push (pushSelector true) PushRes.wouldBlock.code 0 []
  | .pushHard k => record .push (pushSelector true) (PushRes.hard k).code 0 []
  | .csExit => record .csExit 0 0 0 []
  | .irqEnter => record .irqEnter 0 0 0 []
  | .getReportInput id => encodeRequest (.getReport .input id)
  | .getReportUnsup type id => encodeRequest (.getReport type id)
  | .setReportLed b => encodeRequest (.setReport .output 0 [b])
  | .setReportUnsup type id payload => encodeRequest (.setReport type id payload)
  | .getDescriptor => encodeRequest .getDescriptor
  | .irqExit => record .irqExit 0 0 0 []

/-- The micro-operation an instruction is a form of (30_encoding R97, R98). -/
def Instr.uop (i : Instr) : Uop :=
  match i with
  | .colAssert => .colAssert
  | .settle => .settle
  | .rowSample => .rowSample
  | .colDeassert => .colDeassert
  | .colNext => .colNext
  | .dbfPump => .dbfPump
  | .bootCheck => .bootCheck
  | .bootEnter => .bootEnter
  | .tmrArmFirst | .tmrArmPeriod => .tmrArm
  | .tmrWait => .tmrWait
  | .layerSel => .layerSel
  | .encInit => .encInit
  | .encCellSkip | .encCellEmpty | .encCellMod | .encCellSent | .encCellKey | .encCellOvf => .encCell
  | .encDone => .encDone
  | .csEnter => .csEnter
  | .commit => .commit
  | .pushSuppress | .pushOk | .pushWouldBlock | .pushHard _ => .push
  | .csExit => .csExit
  | .irqEnter => .irqEnter
  | .getReportInput _ | .getReportUnsup _ _ => .getReport
  | .setReportLed _ | .setReportUnsup _ _ _ => .setReport
  | .getDescriptor => .getDescriptor
  | .irqExit => .irqExit

/-- The bytes of a table word: byte j is bits 8j+7 to 8j, the bits from `nbits` on are zero, and there are at least the
four header bytes. -/
def tableBytes (nbits w : Nat) : List Byte :=
  (List.range (max 4 ((nbits + 7) / 8))).map fun j => BitVec.ofNat 8 ((w % 2 ^ nbits) >>> (8 * j))

/-- The instruction the decoder reads from a table word. A word of 5 or 8 bits carries no selector, so every selector is 0:
the forms `TMR_ARM.PERIOD`, `ENC_CELL.SKIP`, `PUSH.SUPPRESS`, `GET_REPORT.INPUT` and `SET_REPORT.UNSUP` (log 8). -/
def decodeTableWord (nbits w : Nat) : Option Instr :=
  match decode (tableBytes nbits w) with
  | .ok i => some i
  | .error _ => none

end Sys2Proof
end

