-- ==== Sys2Proof/Config.lean ====
section
/-!
DEFINITION. What an implementation fixes: the configuration record CFG (spec 00_scope R7) as plain data, the fixed constants
of R7, and the free values, which have no body: what the environment draws when nothing was scripted, and what an external
debounce filter answers.
-/

namespace Sys2Proof

/-- The class of a key code, with its mask where the class is Modifier: one cell of AS_CLASS (20_memory R63). -/
inductive KeyClass where
  | empty
  | modifier (mask : Byte)
  | sentinel
  | normal
deriving DecidableEq, Repr, Inhabited

/-- The state of a Debounce Filter, opaque to the block (10_state R24). Any countable filter memory can be written as a list
of matrices (DESIGN CHOICE, log 12). -/
abbrev FilterState (ncols nrows : Nat) := List (Matrix ncols nrows)

/-- Which filter the configuration names (41 R140, decision D28). -/
inductive FilterKind where
  /-- the pass-through filter of EX (95 section 0): the property DBF_PASS -/
  | passThrough
  /-- the filter "two equal samples" of vectors V13 and V14 (95 section 2.2) -/
  | twoSamples
  /-- any other filter: a function nothing is known of, one for each number -/
  | external (number : Nat)
deriving DecidableEq, Repr, Inhabited

/-- The record DBF: the filter and its state after reset, `dbs0` (41 R140). -/
structure Dbf (ncols nrows : Nat) where
  kind : FilterKind
  dbs0 : FilterState ncols nrows
deriving DecidableEq, Repr

/-- The numeric codes the host uses for the report types the source names (00_scope R7: OPEN, so parameters; 92 D24). Equal
codes are admitted (DESIGN CHOICE, log 25). -/
structure RTypeCodes where
  input : Byte
  output : Byte
deriving DecidableEq, Repr

/-- The report type a host's numeric code means: one of the two named ones, or any other (30_encoding R91). The spec does not
say whether the two codes may be equal, nor what such a code means: here it means Input, so that no code then means Output
(DESIGN CHOICE, log 25). No operation calls this. -/
def RTypeCodes.typeOf (codes : RTypeCodes) (code : Byte) : RType :=
  if code = codes.input then .input else if code = codes.output then .output else .other code

/-- The configuration record CFG (00_scope R7). Every field is a compile-time constant with the same value at every state
(10_state R41). Tables and filter are typed by `ncols` and `nrows` (00_scope R8 b, 92 D26). Durations are in microseconds. -/
structure Cfg where
  ncols : Nat
  nrows : Nat
  fnPos : Cell
  bootPos : Cell
  /-- `TABLE[Normal]` -/
  tableNormal : Grid Byte ncols nrows
  /-- `TABLE[FN]` -/
  tableFn : Grid Byte ncols nrows
  /-- AS_CLASS: the class of each of the 256 bytes, and the mask of a modifier -/
  classRom : Vector KeyClass 256
  kcRollover : Byte
  dbf : Dbf ncols nrows
  descBytes : List Byte
  /-- the numeric codes of RType: the host's, read by no operation (30_encoding R91, 92 D24) -/
  rtypeCodes : RTypeCodes
  /-- absent unless said otherwise: the source's default -/
  ledPresent : Bool := false
  colActiveLevel : Bool
  rowActiveLevel : Bool
  tSettle : Nat
  tPeriod : Nat
  tFirst : Nat
deriving DecidableEq, Repr

/-- `KC_EMPTY` (00_scope R7). -/
def kcEmpty : Byte := 0x00

/-- `NSLOTS` (00_scope R7). -/
def nslots : Nat := 6

/-- `REPORT_LEN` (00_scope R7). -/
def reportLen : Nat := 8

/-- `NLEDS` (00_scope R7). -/
def nleds : Nat := 5

/-- `NLAYERS` (00_scope R7). -/
def nlayers : Nat := 2

/-- `OUT_REPORT_ID` (00_scope R7). -/
def outReportId : Byte := 0

/-- `OUT_REPORT_LEN` (00_scope R7). -/
def outReportLen : Nat := 1

/-- `MAX_PACKET` (00_scope R7, 44 R188). -/
def maxPacket : Nat := 8

/-- The declared interface subclass, a symbol without a number (44 R188, decision D34). -/
inductive Subclass where
  | bootInterface
deriving DecidableEq, Repr

/-- The declared protocol, a symbol without a number (44 R188, decision D34). -/
inductive Protocol where
  | keyboard
deriving DecidableEq, Repr

/-- `SUBCLASS` (44 R188). -/
def subclass : Subclass := .bootInterface

/-- `PROTOCOL` (44 R188). -/
def protocol : Protocol := .keyboard

/-- Whether an item of the report descriptor describes the input or the output report. -/
inductive DescDir where
  | input
  | output
deriving DecidableEq, Repr

/-- One item of the report descriptor's structure (44 R186): its direction, whether its fields are constant, whether they are
an array of usages, and how many fields of how many bits it has. -/
structure DescItem where
  dir : DescDir
  constant : Bool
  array : Bool
  count : Nat
  bits : Nat
deriving DecidableEq, Repr

/-- The structure the descriptor has, in order (44 R186): 8 modifier bits, a constant reserved byte, 6 array-type key bytes,
5 LED bits, 3 constant padding bits. `descBytes` is not checked against it (decision D25). -/
def descStructure : List DescItem :=
  [ ⟨.input, false, false, 8, 1⟩, ⟨.input, true, false, 1, 8⟩, ⟨.input, false, true, 6, 8⟩,
    ⟨.output, false, false, 5, 1⟩, ⟨.output, true, false, 3, 1⟩ ]

/-- The bits a direction of the descriptor describes. -/
def descBits (d : DescDir) : Nat :=
  ((descStructure.filter fun it => decide (it.dir = d)).map fun it => it.count * it.bits).sum

/-- Free value: the answer of external filter `number` in a filter state to a matrix (41 R140: a total deterministic function
of its two arguments, the output of its input's shape; nothing else is known of it, log 12). -/
opaque Config.filterAnswer (ncols nrows : Nat) :
    Nat → FilterState ncols nrows → Matrix ncols nrows → FilterState ncols nrows × Matrix ncols nrows

/-- Free value: the levels of `nrows` row lines that the environment presents at a `RowRead` which nothing scripted (40 R124,
log 5). -/
opaque Config.freeRows (nrows : Nat) : Nat → Vector Bool nrows

/-- Free value: the result of an `XPORT.push` that nothing scripted (45 R207, log 5). -/
opaque Config.freePush : Nat → PushRes

/-- Free value: the move that comes next when none is scripted (00_scope R9, 45 R222, log 5). -/
opaque Config.freeMove : Nat → Move

end Sys2Proof
end

