-- ==== Sys2Proof/Machine/CfgWf.lean ====
section
/-!
DEFINITION. Which configurations the model admits (spec 00_scope R8), the example configuration EX of 95_test_vectors
section 0, and the constant reads of AS_TABLE and AS_CLASS.
-/

namespace Sys2Proof.Machine

/-- The class of byte `k`: cell `k` of AS_CLASS (20_memory R63). -/
def classOf (c : Cfg) (k : Byte) : KeyClass := c.classRom[k.toNat]'k.isLt

/-- `modmask(k)`, used only where the class is Modifier (00_scope R7). -/
def modmaskOf (c : Cfg) (k : Byte) : Byte :=
  match classOf c k with
  | .modifier m => m
  | .empty | .sentinel | .normal => 0

/-- The 2-bit code of a class (30_encoding R93). -/
def classCode (k : KeyClass) : BitVec 2 :=
  match k with
  | .empty => 0b00
  | .modifier _ => 0b01
  | .sentinel => 0b10
  | .normal => 0b11

/-- The masks that have exactly one bit set (30_encoding R93). -/
def oneBitMasks : List Byte := [0x01, 0x02, 0x04, 0x08, 0x10, 0x20, 0x40, 0x80]

/-- The masks of the bytes of class Modifier. -/
def modifierMasks (c : Cfg) : List Byte :=
  c.classRom.toList.filterMap fun k =>
    match k with
    | .modifier m => some m
    | .empty | .sentinel | .normal => none

/-- A cell lies inside the matrix. -/
def inMatrix (c : Cfg) (p : Cell) : Bool := decide (p.1 < c.ncols) && decide (p.2 < c.nrows)

/-- Well-formedness of CFG, 00_scope R8: (a) a nonempty matrix with both positions inside; (d) one-bit, pairwise different
modifier masks; (e) `class(0x00) = Empty`, so that no Normal or Sentinel byte is 0x00; (f) `class(KC_ROLLOVER) = Sentinel`.
(b), (c) and (g) hold by the types of the tables, of the class ROM and of the filter. The settle time is at least 10
microseconds (00_scope R7). -/
def cfgWf (c : Cfg) : Bool :=
  decide (1 ≤ c.ncols) && decide (1 ≤ c.nrows) && inMatrix c c.fnPos && inMatrix c c.bootPos &&
  (modifierMasks c).all (fun m => oneBitMasks.contains m) && decide (modifierMasks c).Nodup &&
  decide (classOf c 0x00 = .empty) && decide (classOf c c.kcRollover = .sentinel) &&
  decide (10 ≤ c.tSettle)

/-- The class of a byte in EX (95 section 0). -/
def exClass (k : Nat) : KeyClass :=
  if k = 0 then .empty
  else if k ≤ 3 then .sentinel
  else if 0xE0 ≤ k ∧ k ≤ 0xE7 then .modifier (BitVec.ofNat 8 (2 ^ (k - 0xE0)))
  else .normal

/-- A descriptor with the structure of 44 R186: the illustrative bytes of 93 G4 (PRESUMED, log 3). -/
def exDescriptor : List Byte :=
  [0x05, 0x01, 0x09, 0x06, 0xA1, 0x01, 0x05, 0x07, 0x19, 0xE0, 0x29, 0xE7, 0x15, 0x00, 0x25, 0x01] ++
  [0x75, 0x01, 0x95, 0x08, 0x81, 0x02, 0x75, 0x08, 0x95, 0x01, 0x81, 0x01, 0x05, 0x07, 0x19, 0x00] ++
  [0x29, 0xFF, 0x15, 0x00, 0x26, 0xFF, 0x00, 0x75, 0x08, 0x95, 0x06, 0x81, 0x00, 0x05, 0x08, 0x19] ++
  [0x01, 0x29, 0x05, 0x15, 0x00, 0x25, 0x01, 0x75, 0x01, 0x95, 0x05, 0x91, 0x02, 0x75, 0x03, 0x95] ++
  [0x01, 0x91, 0x01, 0xC0]

/-- The example configuration EX of 95 section 0, the spec's own, with the durations of 00_scope R7 (DESIGN CHOICE, log 2), the
descriptor of 93 G4 (PRESUMED, log 3) and the report-type codes of 93 G3 (PRESUMED, log 24). -/
def exCfg : Cfg where
  ncols := 4
  nrows := 3
  fnPos := (3, 1)
  bootPos := (0, 0)
  tableNormal := #v[#v[0x29, 0xE1, 0xE0], #v[0x04, 0x05, 0x06], #v[0x07, 0x08, 0x09], #v[0x0A, 0x00, 0xE6]]
  tableFn := #v[#v[0x35, 0xE1, 0xE0], #v[0x02, 0x3B, 0x3C], #v[0x3D, 0x3E, 0x3F], #v[0x40, 0x00, 0xE6]]
  classRom := Vector.ofFn fun k => exClass k
  kcRollover := 0x01
  dbf := ⟨.passThrough, []⟩
  descBytes := exDescriptor
  rtypeCodes := ⟨1, 2⟩
  ledPresent := true
  colActiveLevel := true
  rowActiveLevel := true
  tSettle := 10
  tPeriod := 8000
  tFirst := 500000

set_option maxRecDepth 4000 in
/-- EX meets 00_scope R8. -/
theorem exCfg_wf : cfgWf exCfg = true := by decide +kernel

/-- A configuration the model admits (00_scope R8): the record with the proof that it is well formed, so that an ill-formed one
cannot stand in a state (93 U14, U15; log 21). -/
structure WfCfg where
  val : Cfg
  ok : cfgWf val = true
deriving DecidableEq, Repr

/-- EX as an admitted configuration. -/
def exWfCfg : WfCfg := ⟨exCfg, exCfg_wf⟩

theorem cfgWf_iff (c : Cfg) :
    cfgWf c = true ↔
      1 ≤ c.ncols ∧ 1 ≤ c.nrows ∧ (c.fnPos.1 < c.ncols ∧ c.fnPos.2 < c.nrows) ∧
      (c.bootPos.1 < c.ncols ∧ c.bootPos.2 < c.nrows) ∧ (∀ m ∈ modifierMasks c, m ∈ oneBitMasks) ∧
      (modifierMasks c).Nodup ∧ classOf c 0x00 = .empty ∧ classOf c c.kcRollover = .sentinel ∧ 10 ≤ c.tSettle := by
  simp [cfgWf, inMatrix, and_assoc]

theorem fnPos_inside (w : WfCfg) : w.val.fnPos.1 < w.val.ncols ∧ w.val.fnPos.2 < w.val.nrows :=
  ((cfgWf_iff _).1 w.ok).2.2.1

theorem bootPos_inside (w : WfCfg) : w.val.bootPos.1 < w.val.ncols ∧ w.val.bootPos.2 < w.val.nrows :=
  ((cfgWf_iff _).1 w.ok).2.2.2.1

/-- Cell number `k` lies inside the matrix (00_scope R11). -/
theorem cell_inside {ncols nrows k : Nat} (h : k < ncols * nrows) : k / nrows < ncols ∧ k % nrows < nrows := by
  have hr : 0 < nrows := Nat.pos_of_ne_zero fun e => by simp [e] at h
  exact ⟨(Nat.div_lt_iff_lt_mul hr).2 h, Nat.mod_lt _ hr⟩

end Sys2Proof.Machine
end

