-- ==== Sys2Proof/Machine/State.lean ====
section
/-!
DEFINITION. The state of the block: the registers of spec 10_state R20, the constant configuration, and the model's own fields
(what the environment is scripted to do, and what the block has emitted and answered). The reset state (70 R260), and the
reasons a step can stop.
-/

namespace Sys2Proof.Machine

/-- The layer register's two values: 0 = Normal, 1 = FN (10_state R26). -/
inductive Layer where
  | normal
  | fn
deriving DecidableEq, Repr, Inhabited

/-- The six key slots `SLOT[0..5]` (10_state R28). -/
abbrev Slots := Vector Byte 6

/-- The LED State `LED[0..4]` (10_state R34). -/
structure Leds where
  numLock : Bool
  capsLock : Bool
  scrollLock : Bool
  compose : Bool
  kana : Bool
deriving DecidableEq, Repr, Inhabited

/-- The five setters of interface LEDIF (00_scope R14). -/
inductive Setter where
  | setNumLock
  | setCapsLock
  | setScrollLock
  | setCompose
  | setKana
deriving DecidableEq, Repr, Inhabited

/-- An output event on an interface of 00_scope R14. -/
inductive Event where
  /-- `P_COL[c]=v` -/
  | pCol (c : Nat) (v : Bool)
  /-- `DBF.step` -/
  | dbfStep
  /-- `TMR.arm(period)`, in microseconds -/
  | tmrArm (period : Nat)
  /-- `XPORT.push(report) -> result` -/
  | push (report : Report) (result : PushRes)
  /-- `LOG.hard_failure(kind)` -/
  | hardFailure (kind : HardKind)
  /-- `LEDIF.<setter>(b)` -/
  | led (setter : Setter) (b : Bool)
  /-- `BOOTLDR.enter()` -/
  | bootEnter
deriving DecidableEq, Repr, Inhabited

/-- The answer to a host request on interface HIDREQ. -/
inductive Reply where
  /-- `ok(bytes)` of `get_report`: 8 bytes, byte 0 first (44 R181) -/
  | report (bytes : List Byte)
  /-- `ok` of `set_report` (44 R183) -/
  | done
  /-- the report descriptor (44 R187) -/
  | descriptor (bytes : List Byte)
  /-- the error *Unsupported report* with the offending type, id and, for `set_report`, length (60 R230) -/
  | unsupportedReport (type : RType) (id : Byte) (len : Option Nat)
deriving DecidableEq, Repr, Inhabited

/-- The registers that have no value after reset: their reset value is `unwritten` (10_state R20, R47). -/
inductive RegName where
  | raw
  | deb
  | layer
  | modifier
  | slots
  | rep
deriving DecidableEq, Repr

/-- Why the machine stops with a fault. All are safe: the hardware has no such behaviour to be wrong about. -/
inductive Fault where
  /-- Raised by an operation that reads a register holding `unwritten`: "a model faults a read of one" (10_state R47, 70 R269,
  93 U16). No run from reset raises it. Safe. -/
  | unwritten (r : RegName)
  /-- Raised by an operation at a state whose SEQ.c or SEQ.k numbers no column or cell (20_memory R70: no access can be out of
  range at run time). It is no check of a shape: matrices and tables are typed by NCOLS and NROWS. No run from reset raises
  it. Safe (log 11). -/
  | outOfRange
  /-- Raised by every step once BOOTED = 1: the terminal state, "no further step of any agent" (10_state R39, 93 U11). Safe
  (log 10). -/
  | booted
deriving DecidableEq, Repr

/-- Why an operation has no meaning in a state. -/
inductive Refusal where
  /-- Raised by an arm of exec that has no meaning yet. -/
  | notModelled (mnemonic : String)
  /-- Raised by an operation whose agent may not take a step: POLL outside `IN_IRQ = 0, BOOTED = 0` (45 R200), IRQ_ENTER
  outside R215's condition, a request or IRQ_EXIT outside a handler (44 R180, 45 R216). Safe (log 9). -/
  | notEnabled
  /-- Raised by an operation of the poll context at a label that does not issue it (30 R97, 45 R200). Safe (log 9). -/
  | notIssued
  /-- Raised by a sub-form whose selector values the state or the arguments do not have (30 R96). Safe (log 9). -/
  | notSelected
  /-- Raised by a step whose record of bytes the decoder rejects (30 R106). No step raises it. Safe. -/
  | undecodable (e : DecodeError)
deriving DecidableEq, Repr

/-- A column of row levels in a configuration. -/
abbrev Column (w : WfCfg) := Vector Bool w.val.nrows

/-- A matrix in a configuration (00_scope R8 b, 70 R273). -/
abbrev MatrixOf (w : WfCfg) := Matrix w.val.ncols w.val.nrows

/-- The Raw Matrix while it is sampled: each column unwritten or written (10_state R23, R47). -/
abbrev RawOf (w : WfCfg) := Vector (Option (Column w)) w.val.ncols

/-- The state of the machine. Every matrix in it is typed by NCOLS and NROWS of its CFG, so a mismatch cannot be written
(92 D26). -/
structure State where
  /-- CFG, constant (10_state R41, log 1) -/
  cfg : WfCfg
  /-- `COL[c]` (10_state R21) -/
  col : Vector Bool cfg.val.ncols
  /-- `RAW`, column by column; `none` is the spec's `unwritten` (10_state R23, log 4) -/
  raw : RawOf cfg
  /-- `DBS` (10_state R24) -/
  dbs : FilterState cfg.val.ncols cfg.val.nrows
  /-- `DEB`; `none` is `unwritten` (10_state R25) -/
  deb : Option (MatrixOf cfg)
  /-- `LAYER`; `none` is `unwritten` (10_state R26) -/
  layer : Option Layer
  /-- `MOD`; `none` is `unwritten` (10_state R27) -/
  modifier : Option Byte
  /-- `SLOT[0..5]`; `none` is `unwritten` (10_state R28) -/
  slots : Option Slots
  /-- `REP`; `none` is `unwritten` (10_state R29) -/
  rep : Option Report
  /-- `LAST_SENT` (10_state R30) -/
  lastSent : Report
  /-- `SEQ.pc` (10_state R31) -/
  seqPc : Label
  /-- `SEQ.c` (10_state R31) -/
  seqC : Nat
  /-- `SEQ.k` (10_state R31) -/
  seqK : Nat
  /-- `SEQ.boot` (10_state R31) -/
  seqBoot : Bool
  /-- `BR_REPORT` (10_state R33) -/
  brReport : Report
  /-- `LED[0..4]` (10_state R34) -/
  led : Leds
  /-- `MASK` (10_state R35) -/
  mask : Bool
  /-- `IRQ_PENDING` (10_state R36) -/
  irqPending : Bool
  /-- `IN_IRQ` (10_state R37) -/
  inIrq : Bool
  /-- `TMR.armed` (10_state R38) -/
  tmrArmed : Bool
  /-- `TMR.expired` (10_state R38) -/
  tmrExpired : Bool
  /-- `BOOTED` (10_state R39) -/
  booted : Bool
  /-- the model's own: the moves the environment is scripted to propose, first one next (log 5) -/
  moves : List Move
  /-- the model's own: the row levels scripted for the next RowReads (log 5) -/
  rowsIn : List (Column cfg)
  /-- the model's own: the results scripted for the next pushes (log 5) -/
  pushIn : List PushRes
  /-- the model's own: the counter the free values are applied to (log 5) -/
  draws : Nat
  /-- the model's own: the output events emitted so far, oldest first (log 7) -/
  events : List Event
  /-- the model's own: the host requests answered so far, oldest first (log 7) -/
  replies : List (Request × Reply)
deriving DecidableEq, Repr

/-- The state right after reset under configuration `cfg` (70 R260): `RAW`, `DEB`, `LAYER`, `MOD`, `SLOT` and `REP`
unwritten, `DBS = dbs0`, `SEQ = (S_ASSERT, 0, 0, 1)`, everything else 0. -/
def State.resetWith (cfg : WfCfg) : State where
  cfg := cfg
  col := Vector.replicate cfg.val.ncols false
  raw := Vector.replicate cfg.val.ncols none
  dbs := cfg.val.dbf.dbs0
  deb := none
  layer := none
  modifier := none
  slots := none
  rep := none
  lastSent := 0
  seqPc := .sAssert
  seqC := 0
  seqK := 0
  seqBoot := true
  brReport := 0
  led := ⟨false, false, false, false, false⟩
  mask := false
  irqPending := false
  inIrq := false
  tmrArmed := false
  tmrExpired := false
  booted := false
  moves := []
  rowsIn := []
  pushIn := []
  draws := 0
  events := []
  replies := []

/-- The machine right after reset, in the spec's example configuration EX (DESIGN CHOICE, log 2: the block's CFG is an argument
and every statement is made for all of them). -/
def State.reset : State := State.resetWith exWfCfg

end Sys2Proof.Machine
end

