-- ==== Sys2Proof/Machine/Flags.lean ====
section
/-!
DEFINITION. The conditions that are computed from registers and not stored (spec 10_state R40), and which agent may take a step
(45 R200, R215 to R217, R222).
-/

namespace Sys2Proof.Machine

/-- `first_empty(SLOT)`: the least index holding 0x00, or 6 (00_scope R12). -/
def firstEmpty (sl : Slots) : Nat := sl.toList.findIdx fun b => b == 0x00

/-- `FULL = (first_empty(SLOT) = 6)` (10_state R40). -/
def slotsFull (sl : Slots) : Bool := decide (firstEmpty sl = 6)

/-- `CHANGED = (REP != LAST_SENT)`, byte-wise, given the value of REP (10_state R40). -/
def changedFrom (rep : Report) (s : State) : Bool := decide (rep ≠ s.lastSent)

/-- A step of the poll context is enabled exactly when `IN_IRQ = 0` and `BOOTED = 0` (45 R200). -/
def pollEnabled (s : State) : Bool := !s.inIrq && !s.booted

/-- IRQ_ENTER is enabled exactly when `IRQ_PENDING = 1`, `MASK = 0`, `IN_IRQ = 0` and `BOOTED = 0` (45 R215, 60 R238). -/
def irqEnabled (s : State) : Bool := s.irqPending && !s.mask && !s.inIrq && !s.booted

/-- The interrupt handler runs: host requests and IRQ_EXIT are enabled (44 R180, 45 R216). -/
def handlerRuns (s : State) : Bool := s.inIrq && !s.booted

/-- `ENV irq` may come at any state with `BOOTED = 0` (45 R222). -/
def raiseEnabled (s : State) : Bool := !s.booted

/-- `ENV tick` may come when the timer is armed and not expired (45 R222); no agent moves once booted (D27). -/
def tickEnabled (s : State) : Bool := s.tmrArmed && !s.tmrExpired && !s.booted

/-- Which moves are enabled in a state. -/
def moveEnabled (s : State) (m : Move) : Bool :=
  match m with
  | .poll => pollEnabled s
  | .irqEnter => irqEnabled s
  | .irqExit => handlerRuns s
  | .request _ => handlerRuns s
  | .raiseIrq => raiseEnabled s
  | .tick => tickEnabled s

end Sys2Proof.Machine
end

