-- ==== Sys2Proof/Machine/Operands.lean ====
section
/-!
DEFINITION. The implicit operands of the operations: cells and matrices, the reads of the ROMs and of registers that may be
unwritten, what the environment answers, the forms of ENC_CELL, and the layout of reports and LED bytes (spec 00_scope R11, R12,
10_state R47, 30_encoding R90, R92, R97).
-/

namespace Sys2Proof.Machine

/-- `cellidx(c, r) = c * NROWS + r` (00_scope R11). -/
def cellIdx (c : Cfg) (p : Cell) : Nat := p.1 * c.nrows + p.2

/-- `cell(k) = (k div NROWS, k mod NROWS)` (00_scope R11). -/
def cellOf (c : Cfg) (k : Nat) : Cell := (k / c.nrows, k % c.nrows)

/-- The number of cells, `NCOLS*NROWS`. -/
def cellCount (c : Cfg) : Nat := c.ncols * c.nrows

/-- Cell `p` of an array it lies in. -/
def cellAt {α : Type} {ncols nrows : Nat} (m : Grid α ncols nrows) (p : Cell) (h : p.1 < ncols ∧ p.2 < nrows) : α :=
  (m[p.1]'h.1)[p.2]'h.2

/-- Cell `p` of an array, none where it lies outside. -/
def arrayAt {α : Type} {ncols nrows : Nat} (m : Grid α ncols nrows) (p : Cell) : Option α :=
  if h : p.1 < ncols ∧ p.2 < nrows then some (cellAt m p h) else none

/-- The matrix with no cell asserted. -/
def allOpen (ncols nrows : Nat) : Matrix ncols nrows := Vector.replicate ncols (Vector.replicate nrows false)

/-- Cell by cell AND of two matrices. -/
def matrixAnd {ncols nrows : Nat} (a b : Matrix ncols nrows) : Matrix ncols nrows :=
  Vector.zipWith (Vector.zipWith fun x y => x && y) a b

/-- All columns of RAW, if every one is written. -/
def wholeRaw {α : Type} {n : Nat} (raw : Vector (Option α) n) : Option (Vector α n) :=
  if h : ∀ c (hc : c < n), raw[c].isSome = true then some (Vector.ofFn fun c => raw[c.val].get (h c.val c.isLt)) else none

/-- `RAW` with no column written (10_state R23). -/
def rawUnwritten (w : WfCfg) : RawOf w := Vector.replicate w.val.ncols none

/-- `dbf_step` (41 R140): the next filter state and the Debounced Matrix. -/
def dbfAnswer (c : Cfg) (d : FilterState c.ncols c.nrows) (m : Matrix c.ncols c.nrows) :
    FilterState c.ncols c.nrows × Matrix c.ncols c.nrows :=
  match c.dbf.kind with
  | .passThrough => (d, m)
  | .twoSamples => ([m], matrixAnd m (d.headD (allOpen c.ncols c.nrows)))
  | .external number => Config.filterAnswer c.ncols c.nrows number d m

/-- The table of a layer (20_memory R62). -/
def tableOf (c : Cfg) (l : Layer) : Grid Byte c.ncols c.nrows :=
  match l with
  | .normal => c.tableNormal
  | .fn => c.tableFn

/-- `TableRead(layer, c, r)` (00_scope R12, 20_memory R62), none where the cell lies outside the matrix. -/
def tableRead (c : Cfg) (l : Layer) (p : Cell) : Option Byte := arrayAt (tableOf c l) p

/-- The bit of a layer: 0 = Normal, 1 = FN (10_state R26). -/
def layerBit (l : Layer) : Bool :=
  match l with
  | .normal => false
  | .fn => true

/-- `DEB[p]` of a cell of the matrix; a fault where DEB is unwritten (10_state R47, 93 U16). -/
def readDeb {w : WfCfg} (deb : Option (MatrixOf w)) (p : Cell) (h : p.1 < w.val.ncols ∧ p.2 < w.val.nrows) :
    Except Fault Bool :=
  match deb with
  | none => .error (.unwritten .deb)
  | some m => .ok (cellAt m p h)

/-- The key code the selected table gives a cell of the matrix: `TableRead(LAYER, c, r)` (43 R161); a fault where LAYER is
unwritten (10_state R47, 93 U16). -/
def readKey (w : WfCfg) (layer : Option Layer) (p : Cell) (h : p.1 < w.val.ncols ∧ p.2 < w.val.nrows) :
    Except Fault Byte :=
  match layer with
  | none => .error (.unwritten .layer)
  | some l => .ok (cellAt (tableOf w.val l) p h)

/-- The six sub-forms of ENC_CELL with what they read (43 R161). -/
inductive EncForm where
  | skip
  | empty
  | modifier (mask : Byte)
  | sentinel (kc : Byte)
  | key (kc : Byte) (slots : Slots)
  | overflow
deriving DecidableEq, Repr

/-- The sub-form of an asserted cell that maps to key code `kc` (43 R161). FULL is looked at for class Normal only;
an unwritten SLOT faults there (10_state R47, 93 U16). -/
def encFormOfKey (c : Cfg) (slots : Option Slots) (kc : Byte) : Except Fault EncForm :=
  match classOf c kc with
  | .empty => .ok .empty
  | .modifier mask => .ok (.modifier mask)
  | .sentinel => .ok (.sentinel kc)
  | .normal =>
    match slots with
    | none => .error (.unwritten .slots)
    | some sl => if slotsFull sl then .ok .overflow else .ok (.key kc sl)

/-- The sub-form of ENC_CELL at cell number `k`, from what it reads (43 R161); a fault where a register it reads is unwritten
(10_state R47, 93 U16). -/
def encFormAt (w : WfCfg) (deb : Option (MatrixOf w)) (layer : Option Layer) (slots : Option Slots) (k : Nat) :
    Except Fault EncForm :=
  match deb with
  | none => .error (.unwritten .deb)
  | some m =>
    if h : k < cellCount w.val then
      if cellAt m (cellOf w.val k) (cell_inside h) then
        match readKey w layer (cellOf w.val k) (cell_inside h) with
        | .error f => .error f
        | .ok kc => encFormOfKey w.val slots kc
      else .ok .skip
    else .error .outOfRange

/-- The sub-form of ENC_CELL at the cell `SEQ.k` names (43 R161). -/
def encForm (s : State) : Except Fault EncForm := encFormAt s.cfg s.deb s.layer s.slots s.seqK

/-- The selector values of a sub-form of ENC_CELL (30_encoding R97). -/
def EncForm.selector (f : EncForm) : Byte :=
  match f with
  | .skip => encSelector false 0b00 false
  | .empty => encSelector true 0b00 false
  | .modifier _ => encSelector true 0b01 false
  | .sentinel _ => encSelector true 0b10 false
  | .key _ _ => encSelector true 0b11 false
  | .overflow => encSelector true 0b11 true

/-- The next row levels of a script, or the free value past its end. -/
def nextRows {nrows : Nat} (rowsIn : List (Vector Bool nrows)) (draws : Nat) : Vector Bool nrows :=
  match rowsIn with
  | rows :: _ => rows
  | [] => Config.freeRows nrows draws

/-- `RowRead()`: what the environment presents on the row lines at this step, `NROWS` logical levels (40 R124). -/
def rowAnswer (s : State) : Column s.cfg := nextRows s.rowsIn s.draws

/-- The result the environment draws for the next `XPORT.push` (45 R207). -/
def pushAnswer (s : State) : PushRes :=
  match s.pushIn with
  | res :: _ => res
  | [] => Config.freePush s.draws

/-- Byte `i` of a report: bits 8i+7 to 8i (20_memory R67). -/
def reportByte (r : Report) (i : Nat) : Byte := r.extractLsb' (8 * i) 8

/-- The 8 bytes of a report, byte 0 first (44 R181). -/
def reportBytes (r : Report) : List Byte := (List.range 8).map (reportByte r)

/-- The report with the given bytes, byte 0 first: byte `i` at bits 8i+7 to 8i (20_memory R67). -/
def reportOfBytes (bs : List Byte) : Report := bs.foldr (fun b r => r <<< 8 ||| b.setWidth 64) 0

/-- The report of a modifier byte and six slots (30_encoding R101): `MOD`, 0x00, `SLOT[0..5]`. -/
def assembleReport (m : Byte) (sl : Slots) : Report :=
  reportOfBytes [m, 0x00, sl[0], sl[1], sl[2], sl[3], sl[4], sl[5]]

/-- All six slots holding one byte. -/
def filled (b : Byte) : Slots := Vector.replicate 6 b

/-- `SLOT[first_empty(SLOT)] <- kc` (43 R166). -/
def putKey (sl : Slots) (kc : Byte) : Slots := sl.setIfInBounds (firstEmpty sl) kc

/-- `LED[i] <- b[i]` for i = 0..4 (30_encoding R102). -/
def ledsOfByte (b : Byte) : Leds where
  numLock := b.getLsbD 0
  capsLock := b.getLsbD 1
  scrollLock := b.getLsbD 2
  compose := b.getLsbD 3
  kana := b.getLsbD 4

/-- The five setter events of an accepted `set_report`, in ascending bit order (44 R184). -/
def setterEvents (l : Leds) : List Event :=
  [ .led .setNumLock l.numLock, .led .setCapsLock l.capsLock, .led .setScrollLock l.scrollLock,
    .led .setCompose l.compose, .led .setKana l.kana ]

/-- The electrical level of column line `c` (10_state R21; not observable at the level of the spec, log 19). -/
def columnPin (s : State) (c : Nat) (h : c < s.cfg.val.ncols) : Bool := s.col[c] == s.cfg.val.colActiveLevel

/-- The logical row level an electrical level means (40 R124; not observable at the level of the spec, log 19). -/
def rowLevel (c : Cfg) (pin : Bool) : Bool := pin == c.rowActiveLevel

end Sys2Proof.Machine
end

