-- ==== Sys2Proof/Machine/Ops.lean ====
section
/-!
DEFINITION. The operations the meanings share: when an operation is issued, the writes of registers, taking the interrupt and
returning from it, and the answers to host requests.
-/

namespace Sys2Proof.Machine

/-- The outcome of an operation. -/
abbrev Out := Host.Outcome State Fault Refusal

/-- `SEQ.pc <- l` (00_scope R12). -/
def State.goto (s : State) (l : Label) : State := { s with seqPc := l }

/-- Records output events (00_scope R12, `emit`). -/
def State.emit (s : State) (es : List Event) : State := { s with events := s.events ++ es }

/-- Records the answer to a host request. -/
def State.answer (s : State) (r : Request) (a : Reply) : State := { s with replies := s.replies ++ [(r, a)] }

/-- The environment's row levels have been used up by one RowRead. -/
def State.useRows (s : State) : State := { s with rowsIn := s.rowsIn.tail, draws := s.draws + 1 }

/-- The environment's push result has been used up by one push. -/
def State.usePush (s : State) : State := { s with pushIn := s.pushIn.tail, draws := s.draws + 1 }

/-- The move has been taken. -/
def State.useMove (s : State) : State := { s with moves := s.moves.tail, draws := s.draws + 1 }

/-- An operation of the poll context: it runs when the poll context may take a step and the sequencer stands at one of the
labels that issue it (45 R200, 30 R97). -/
def issuedAt (ls : List Label) (s : State) (k : Out) : Out :=
  if pollEnabled s then (if s.seqPc ∈ ls then k else .refused .notIssued) else .refused .notEnabled

/-- A host request: it runs while the handler runs (44 R180). -/
def inHandler (s : State) (k : Out) : Out := if handlerRuns s then k else .refused .notEnabled

/-- A sub-form: it runs when its selector values are those of the state (30 R96). -/
def selected (b : Bool) (k : Out) : Out := if b then k else .refused .notSelected

/-- `COL[SEQ.c] <- v; ColWrite(SEQ.c, v); SEQ.pc <- l` (40 R122, R125). -/
def writeColumn (s : State) (v : Bool) (l : Label) : Out :=
  if s.seqC < s.cfg.val.ncols then
    .next (({ s with col := s.col.setIfInBounds s.seqC v }.emit [.pCol s.seqC v]).goto l)
  else .fault .outOfRange

/-- The advance that ends every sub-form of ENC_CELL (43 R161). -/
def State.advanceCell (s : State) : State :=
  { s with
    seqK := s.seqK + 1
    seqPc := if s.seqK + 1 < cellCount s.cfg.val then .lEncCell else .lEncDone }

/-- `TMR.armed <- 1; TMR.expired <- 0` with the event `TMR.arm(period)` (45 R202, R213). -/
def State.armTimer (s : State) (period : Nat) : State :=
  { s with tmrArmed := true, tmrExpired := false }.emit [.tmrArm period]

/-- Taking the interrupt: `IRQ_PENDING <- 0; IN_IRQ <- 1`. It saves no register, changes no mask and goes to no vector of the
block (60 R240). -/
def takeInterrupt (s : State) : State := { s with irqPending := false, inIrq := true }

/-- Returning from the interrupt: `IN_IRQ <- 0`; the poll context goes on where it was (60 R241). -/
def returnFromInterrupt (s : State) : State := { s with inIrq := false }

/-- `raise UnsupportedReport`: the error is the request's answer and nothing else happens (60 R231). -/
def rejectRequest (s : State) (r : Request) (type : RType) (id : Byte) (len : Option Nat) : State :=
  s.answer r (.unsupportedReport type id len)

/-- `XPORT.push(r) -> res`: the call is made once and its result is used up (45 R207). -/
def State.pushCall (s : State) (r : Report) (res : PushRes) : State := s.usePush.emit [.push r res]

/-- A push of a changed report: the sub-forms of PUSH that call the transport (45 R207). `k` is what the sub-form does with
the value of REP. An unwritten REP faults (10_state R47, 93 U16). -/
def pushChanged (s : State) (k : Report → State) : Out :=
  match s.rep with
  | none => .fault (.unwritten .rep)
  | some r => selected (changedFrom r s) (.next ((k r).goto .lCsExit))

/-- A sub-form of ENC_CELL: `k` gives the outcome for the form the state selects (43 R161). -/
def encCell (s : State) (k : EncForm → Out) : Out :=
  issuedAt [.lEncCell] s
    (match encForm s with
     | .error f => .fault f
     | .ok form => k form)

/-- `ENV irq`: `IRQ_PENDING <- 1` (45 R222). -/
def raiseInterrupt (s : State) : State := { s with irqPending := true }

/-- `ENV tick`: `TMR.expired <- 1` (45 R222). -/
def expireTimer (s : State) : State := { s with tmrExpired := true }

end Sys2Proof.Machine
end

