-- ==== Sys2Proof/Machine/Bridge.lean ====
section
/-!
DEFINITION. The report bridge, poll side (spec 45_bridge_and_poll_loop section 4).
-/

namespace Sys2Proof.Machine

/-- CS_ENTER (45 R205). -/
def execCsEnter (s : State) : Out := issuedAt [.lCsEnter] s (.next ({ s with mask := true }.goto .lCommit))

/-- COMMIT (45 R206). An unwritten REP faults (10_state R47, 93 U16). -/
def execCommit (s : State) : Out :=
  issuedAt [.lCommit] s
    (match s.rep with
     | none => .fault (.unwritten .rep)
     | some r => .next ({ s with brReport := r }.goto .lPush))

/-- PUSH.SUPPRESS (45 R208): nothing is sent. An unwritten REP faults (10_state R47, 93 U16). -/
def execPushSuppress (s : State) : Out :=
  issuedAt [.lPush] s
    (match s.rep with
     | none => .fault (.unwritten .rep)
     | some r => selected (!changedFrom r s) (.next (s.goto .lCsExit)))

/-- PUSH.OK (45 R209): the only writer of LAST_SENT. -/
def execPushOk (s : State) : Out :=
  issuedAt [.lPush] s (pushChanged s fun r => { s.pushCall r .ok with lastSent := r })

/-- PUSH.WOULDBLOCK (45 R210): LAST_SENT is not written; the failure is absorbed. -/
def execPushWouldBlock (s : State) : Out :=
  issuedAt [.lPush] s (pushChanged s fun r => s.pushCall r .wouldBlock)

/-- PUSH.HARD (45 R212): LAST_SENT is not written; the failure is logged. -/
def execPushHard (kind : HardKind) (s : State) : Out :=
  issuedAt [.lPush] s (pushChanged s fun r => (s.pushCall r (.hard kind)).emit [.hardFailure kind])

/-- CS_EXIT (45 R211). -/
def execCsExit (s : State) : Out := issuedAt [.lCsExit] s (.next ({ s with mask := false }.goto .lRearm))

end Sys2Proof.Machine
end

