-- ==== Sys2Proof/Machine/Debounce.lean ====
section
/-!
DEFINITION. The debounce filter interface (spec 41_debounce_interface).
-/

namespace Sys2Proof.Machine

/-- DBF_PUMP (41 R141): the whole Raw Matrix goes to the filter, DBS and DEB are what it answers, RAW is unwritten again.
An unwritten column of RAW faults (10_state R47, 70 R269, 93 U16). -/
def execDbfPump (s : State) : Out :=
  issuedAt [.sPump] s
    (match wholeRaw s.raw with
     | none => .fault (.unwritten .raw)
     | some m =>
       .next
         (({ s with
              dbs := (dbfAnswer s.cfg.val s.dbs m).1
              deb := some (dbfAnswer s.cfg.val s.dbs m).2
              raw := rawUnwritten s.cfg }.emit [.dbfStep]).goto
           (if s.seqBoot then .bCheck else .lLayer)))

end Sys2Proof.Machine
end

