-- ==== Sys2Proof/Machine/Encoder.lean ====
section
/-!
DEFINITION. The HID report encoder (spec 43_report_encoder).
-/

namespace Sys2Proof.Machine

/-- ENC_INIT (43 R160). -/
def execEncInit (s : State) : Out :=
  issuedAt [.lEncInit] s
    (.next ({ s with modifier := some 0x00, slots := some (filled 0x00), seqK := 0 }.goto .lEncCell))

/-- ENC_CELL.SKIP (43 R162): the cell is not asserted; the table is not read. -/
def execEncCellSkip (s : State) : Out :=
  encCell s fun form =>
    match form with
    | .skip => .next s.advanceCell
    | .empty | .modifier _ | .sentinel _ | .key _ _ | .overflow => .refused .notSelected

/-- ENC_CELL.EMPTY (43 R163): no effect. -/
def execEncCellEmpty (s : State) : Out :=
  encCell s fun form =>
    match form with
    | .empty => .next s.advanceCell
    | .skip | .modifier _ | .sentinel _ | .key _ _ | .overflow => .refused .notSelected

/-- ENC_CELL.MOD (43 R165): `MOD <- MOD | modmask(kc)`. An unwritten MOD faults (10_state R47, 93 U16). -/
def execEncCellMod (s : State) : Out :=
  encCell s fun form =>
    match form with
    | .modifier mask =>
      match s.modifier with
      | none => .fault (.unwritten .modifier)
      | some m => .next { s with modifier := some (m ||| mask) }.advanceCell
    | .skip | .empty | .sentinel _ | .key _ _ | .overflow => .refused .notSelected

/-- ENC_CELL.SENT (43 R164): the mapped byte fills all six slots. -/
def execEncCellSent (s : State) : Out :=
  encCell s fun form =>
    match form with
    | .sentinel kc => .next { s with slots := some (filled kc) }.advanceCell
    | .skip | .empty | .modifier _ | .key _ _ | .overflow => .refused .notSelected

/-- ENC_CELL.KEY (43 R166): the key goes to the first empty slot. -/
def execEncCellKey (s : State) : Out :=
  encCell s fun form =>
    match form with
    | .key kc sl => .next { s with slots := some (putKey sl kc) }.advanceCell
    | .skip | .empty | .modifier _ | .sentinel _ | .overflow => .refused .notSelected

/-- ENC_CELL.OVF (43 R167): KC_ROLLOVER fills all six slots. -/
def execEncCellOvf (s : State) : Out :=
  encCell s fun form =>
    match form with
    | .overflow => .next { s with slots := some (filled s.cfg.val.kcRollover) }.advanceCell
    | .skip | .empty | .modifier _ | .sentinel _ | .key _ _ => .refused .notSelected

/-- ENC_DONE (43 R168). An unwritten MOD or SLOT faults (10_state R47, 93 U16). -/
def execEncDone (s : State) : Out :=
  issuedAt [.lEncDone] s
    (match s.modifier with
     | none => .fault (.unwritten .modifier)
     | some m =>
       match s.slots with
       | none => .fault (.unwritten .slots)
       | some sl => .next ({ s with rep := some (assembleReport m sl) }.goto .lCsEnter))

end Sys2Proof.Machine
end

