-- ==== Sys2Proof/Machine/Hid.lean ====
section
/-!
DEFINITION. The HID device contract: the host's requests inside a handler (spec 44_hid_contract).
-/

namespace Sys2Proof.Machine

/-- GET_REPORT.INPUT (44 R181): the last report committed; the id is not tested. -/
def execGetReportInput (id : Byte) (s : State) : Out :=
  inHandler s (.next (s.answer (.getReport .input id) (.report (reportBytes s.brReport))))

/-- GET_REPORT.UNSUP (44 R182). -/
def execGetReportUnsup (type : RType) (id : Byte) (s : State) : Out :=
  inHandler s
    (selected (decide (type ≠ .input)) (.next (rejectRequest s (.getReport type id) type id none)))

/-- SET_REPORT.LED (44 R183, R184): all five indicators are written and forwarded. -/
def execSetReportLed (payload : Byte) (s : State) : Out :=
  inHandler s
    (.next
      (({ s with led := ledsOfByte payload }.emit (setterEvents (ledsOfByte payload))).answer
        (.setReport .output 0 [payload]) .done))

/-- SET_REPORT.UNSUP (44 R185): no partial effect. -/
def execSetReportUnsup (type : RType) (id : Byte) (payload : List Byte) (s : State) : Out :=
  inHandler s
    (selected (!setReportAccepted type id payload)
      (.next (rejectRequest s (.setReport type id payload) type id (some payload.length))))

/-- GET_DESCRIPTOR (44 R187). -/
def execGetDescriptor (s : State) : Out :=
  inHandler s (.next (s.answer .getDescriptor (.descriptor s.cfg.val.descBytes)))

end Sys2Proof.Machine
end

