-- ==== Sys2Proof/Machine/Interrupt.lean ====
section
/-!
DEFINITION. The interrupt bracket (spec 45_bridge_and_poll_loop section 5, 60_exceptions section 4).
-/

namespace Sys2Proof.Machine

/-- IRQ_ENTER (45 R215). -/
def execIrqEnter (s : State) : Out := if irqEnabled s then .next (takeInterrupt s) else .refused .notEnabled

/-- IRQ_EXIT (45 R216). -/
def execIrqExit (s : State) : Out := inHandler s (.next (returnFromInterrupt s))

end Sys2Proof.Machine
end

