-- ==== Sys2Proof/Machine/LayerResolver.lean ====
section
/-!
DEFINITION. The layer resolver (spec 42_layer_resolver).
-/

namespace Sys2Proof.Machine

/-- LAYER_SEL (42 R150): DEB[FN_POS] alone picks the table. -/
def execLayerSel (s : State) : Out :=
  issuedAt [.lLayer] s
    (match readDeb s.deb s.cfg.val.fnPos (fnPos_inside s.cfg) with
     | .error f => .fault f
     | .ok b => .next ({ s with layer := some (if b then .fn else .normal) }.goto .lEncInit))

end Sys2Proof.Machine
end

