-- ==== Sys2Proof/Machine/PollLoop.lean ====
section
/-!
DEFINITION. Start-up and the loop's pacing (spec 45_bridge_and_poll_loop sections 2 and 3).
-/

namespace Sys2Proof.Machine

/-- BOOT_CHECK (45 R201): DEB[BOOT_POS] alone decides. -/
def execBootCheck (s : State) : Out :=
  issuedAt [.bCheck] s
    (match readDeb s.deb s.cfg.val.bootPos (bootPos_inside s.cfg) with
     | .error f => .fault f
     | .ok b => .next (s.goto (if b then .bEnter else .bArm)))

/-- BOOT_ENTER (45 R203): the event `BOOTLDR.enter()` and BOOTED. SEQ.pc stays (95 program P1). -/
def execBootEnter (s : State) : Out :=
  issuedAt [.bEnter] s (.next ({ s with booted := true }.emit [.bootEnter]))

/-- TMR_ARM.FIRST (45 R202), the form of TMR_ARM with `SEQ.boot = 1` (30 R97). -/
def execTmrArmFirst (s : State) : Out :=
  issuedAt [.bArm, .lRearm] s
    (selected s.seqBoot (.next (({ s with seqBoot := false }.armTimer s.cfg.val.tFirst).goto .lWait)))

/-- TMR_ARM.PERIOD (45 R213), the form of TMR_ARM with `SEQ.boot = 0` (30 R97). -/
def execTmrArmPeriod (s : State) : Out :=
  issuedAt [.bArm, .lRearm] s (selected (!s.seqBoot) (.next ((s.armTimer s.cfg.val.tPeriod).goto .lWait)))

/-- TMR_WAIT (45 R204): it does not clear TMR.expired. -/
def execTmrWait (s : State) : Out :=
  issuedAt [.lWait] s (.next (if s.tmrExpired then { s with seqC := 0 }.goto .sAssert else s.goto .lWait))

end Sys2Proof.Machine
end

