-- ==== Sys2Proof/Machine/Scanner.lean ====
section
/-!
DEFINITION. The operations of the matrix scanner (spec 40_matrix_scanner).
-/

namespace Sys2Proof.Machine

/-- COL_ASSERT (40 R122). -/
def execColAssert (s : State) : Out := issuedAt [.sAssert] s (writeColumn s true .sSettle1)

/-- SETTLE (40 R123): it changes SEQ.pc only. -/
def execSettle (s : State) : Out :=
  issuedAt [.sSettle1, .sSettle2] s (.next (s.goto (if s.seqPc = .sSettle1 then .sSample else .sNext)))

/-- ROW_SAMPLE (40 R124): the row levels the environment presents become column SEQ.c of RAW. -/
def execRowSample (s : State) : Out :=
  issuedAt [.sSample] s
    (if s.seqC < s.cfg.val.ncols then
      .next (({ s with raw := s.raw.setIfInBounds s.seqC (some (rowAnswer s)) }.useRows).goto .sDeassert)
    else .fault .outOfRange)

/-- COL_DEASSERT (40 R125). -/
def execColDeassert (s : State) : Out := issuedAt [.sDeassert] s (writeColumn s false .sSettle2)

/-- COL_NEXT (40 R127): the comparison uses the new value of SEQ.c. -/
def execColNext (s : State) : Out :=
  issuedAt [.sNext] s
    (.next ({ s with seqC := s.seqC + 1 }.goto (if s.seqC + 1 < s.cfg.val.ncols then .sAssert else .sPump)))

end Sys2Proof.Machine
end

