-- ==== Sys2Proof/Machine/Dispatch.lean ====
section
/-!
DEFINITION. The dispatch of an instruction to its meaning.
-/

namespace Sys2Proof.Machine

/-- The meaning of an instruction in a state. -/
def exec (i : Instr) (s : State) : Host.Outcome State Fault Refusal :=
  match i with
  | .colAssert => Sys2Proof.Machine.execColAssert s
  | .settle => Sys2Proof.Machine.execSettle s
  | .rowSample => Sys2Proof.Machine.execRowSample s
  | .colDeassert => Sys2Proof.Machine.execColDeassert s
  | .colNext => Sys2Proof.Machine.execColNext s
  | .dbfPump => Sys2Proof.Machine.execDbfPump s
  | .bootCheck => Sys2Proof.Machine.execBootCheck s
  | .bootEnter => Sys2Proof.Machine.execBootEnter s
  | .tmrArmFirst => Sys2Proof.Machine.execTmrArmFirst s
  | .tmrArmPeriod => Sys2Proof.Machine.execTmrArmPeriod s
  | .tmrWait => Sys2Proof.Machine.execTmrWait s
  | .layerSel => Sys2Proof.Machine.execLayerSel s
  | .encInit => Sys2Proof.Machine.execEncInit s
  | .encCellSkip => Sys2Proof.Machine.execEncCellSkip s
  | .encCellEmpty => Sys2Proof.Machine.execEncCellEmpty s
  | .encCellMod => Sys2Proof.Machine.execEncCellMod s
  | .encCellSent => Sys2Proof.Machine.execEncCellSent s
  | .encCellKey => Sys2Proof.Machine.execEncCellKey s
  | .encCellOvf => Sys2Proof.Machine.execEncCellOvf s
  | .encDone => Sys2Proof.Machine.execEncDone s
  | .csEnter => Sys2Proof.Machine.execCsEnter s
  | .commit => Sys2Proof.Machine.execCommit s
  | .pushSuppress => Sys2Proof.Machine.execPushSuppress s
  | .pushOk => Sys2Proof.Machine.execPushOk s
  | .pushWouldBlock => Sys2Proof.Machine.execPushWouldBlock s
  | .pushHard kind => Sys2Proof.Machine.execPushHard kind s
  | .csExit => Sys2Proof.Machine.execCsExit s
  | .irqEnter => Sys2Proof.Machine.execIrqEnter s
  | .getReportInput id => Sys2Proof.Machine.execGetReportInput id s
  | .getReportUnsup type id => Sys2Proof.Machine.execGetReportUnsup type id s
  | .setReportLed payload => Sys2Proof.Machine.execSetReportLed payload s
  | .setReportUnsup type id payload => Sys2Proof.Machine.execSetReportUnsup type id payload s
  | .getDescriptor => Sys2Proof.Machine.execGetDescriptor s
  | .irqExit => Sys2Proof.Machine.execIrqExit s

end Sys2Proof.Machine
end

