-- ==== Sys2Proof/Machine/Sequencer.lean ====
section
/-!
DEFINITION. The sequencer and the agents: the constant microprogram (spec 45 R200, 20_memory R66), the record of the operation a
move issues in a state, which move comes next (45 R222, 00_scope R9), and the placement of an instruction so that the next
step issues it.
-/

namespace Sys2Proof.Machine

/-- The constant microprogram: the operation each label issues (45 R200). -/
def microprogram (l : Label) : Uop :=
  match l with
  | .sAssert => .colAssert
  | .sSettle1 => .settle
  | .sSample => .rowSample
  | .sDeassert => .colDeassert
  | .sSettle2 => .settle
  | .sNext => .colNext
  | .sPump => .dbfPump
  | .bCheck => .bootCheck
  | .bEnter => .bootEnter
  | .bArm => .tmrArm
  | .lWait => .tmrWait
  | .lLayer => .layerSel
  | .lEncInit => .encInit
  | .lEncCell => .encCell
  | .lEncDone => .encDone
  | .lCsEnter => .csEnter
  | .lCommit => .commit
  | .lPush => .push
  | .lCsExit => .csExit
  | .lRearm => .tmrArm

/-- The record of operation `u` of the poll context, with the selector values the state gives it (30 R96, R97). -/
def issueRecord (u : Uop) (s : State) : Except Fault (List Byte) :=
  match u with
  | .tmrArm => .ok (record .tmrArm (tmrSelector s.seqBoot) 0 0 [])
  | .encCell =>
    match encForm s with
    | .error f => .error f
    | .ok form => .ok (record .encCell form.selector 0 0 [])
  | .push =>
    match s.rep with
    | none => .error (.unwritten .rep)
    | some r =>
      if changedFrom r s then .ok (record .push (pushSelector true) (pushAnswer s).code 0 [])
      else .ok (record .push (pushSelector false) 0 0 [])
  | .colAssert | .settle | .rowSample | .colDeassert | .colNext | .dbfPump | .bootCheck | .bootEnter
  | .tmrWait | .layerSel | .encInit | .encDone | .csEnter | .commit | .csExit | .irqEnter | .getReport
  | .setReport | .getDescriptor | .irqExit => .ok (record u 0 0 0 [])

/-- The record that move `m` issues in a state: the poll context's at its label, the interrupt bracket's, the host's request.
The environment's own moves issue none. -/
def fetchMove (m : Move) (s : State) : Except Fault (List Byte) :=
  match m with
  | .poll => issueRecord (microprogram s.seqPc) s
  | .irqEnter => .ok (record .irqEnter 0 0 0 [])
  | .irqExit => .ok (record .irqExit 0 0 0 [])
  | .request r => .ok (encodeRequest r)
  | .raiseIrq | .tick => .ok []

/-- The move the environment proposes: the first scripted one, else a free value (log 5). -/
def proposedMove (s : State) : Move :=
  match s.moves with
  | m :: _ => m
  | [] => Config.freeMove s.draws

/-- The move the processor makes when the proposed one is not enabled: the running agent goes on (log 6). -/
def defaultMove (s : State) : Move := if s.inIrq then .irqExit else .poll

/-- The move that comes next: the proposed one where the spec enables it, else the running agent's (log 6). -/
def nextMove (s : State) : Move := if moveEnabled s (proposedMove s) then proposedMove s else defaultMove s

/-- What one move does to a state: an environment step, or the issue, decoding and execution of an operation by `run`. -/
def takeMove (run : Instr → State → Out) (m : Move) (s : State) : Out :=
  match m with
  | .raiseIrq => .next (raiseInterrupt s)
  | .tick => .next (expireTimer s)
  | .poll | .irqEnter | .irqExit | .request _ =>
    match fetchMove m s with
    | .error f => .fault f
    | .ok bytes =>
      match decode bytes with
      | .error e => .refused (.undecodable e)
      | .ok i => run i s

/-- The poll context stands at label `l` and moves next. -/
def State.standAt (s : State) (l : Label) : State :=
  { s with booted := false, inIrq := false, seqPc := l, moves := .poll :: s.moves }

/-- The handler runs and move `m` comes next. -/
def State.handlerMoves (s : State) (m : Move) : State :=
  { s with booted := false, inIrq := true, moves := m :: s.moves }

/-- SEQ.c names a column. -/
def State.columnReady (s : State) : State := { s with seqC := if s.seqC < s.cfg.val.ncols then s.seqC else 0 }

/-- DEB holds a matrix: an unwritten one is set all open. -/
def State.debReady (s : State) : State := { s with deb := some (s.deb.getD (allOpen _ _)) }

/-- REP holds a report that differs from LAST_SENT. -/
def State.repChanged (s : State) : State :=
  { s with
    rep :=
      some
        (match s.rep with
         | some r => if r = s.lastSent then ~~~s.lastSent else r
         | none => ~~~s.lastSent) }

/-- The index of the first cell whose key code under layer `l` has a class that passes `p`. -/
def findClass (c : Cfg) (l : Layer) (p : KeyClass → Bool) : Option Nat :=
  (List.range (cellCount c)).find? fun k =>
    match tableRead c l (cellOf c k) with
    | some kc => p (classOf c kc)
    | none => false

/-- DEB, LAYER and SEQ.k select a cell whose class passes `p`, where either table has one. -/
def State.cellReady (s : State) (p : KeyClass → Bool) : State :=
  let place (l : Layer) (k : Nat) : State :=
    { s with
      layer := some l
      seqK := k
      deb := some (Vector.replicate _ (Vector.replicate _ true)) }
  match findClass s.cfg.val .normal p with
  | some k => place .normal k
  | none =>
    match findClass s.cfg.val .fn p with
    | some k => place .fn k
    | none => s

/-- `s` with everything that lets the very next step issue and run `i` (log 13): whose turn it is, the label or the handler,
the values the selectors of `i` have, and a value in each register that `i` reads and nothing has written. -/
def State.ready (s : State) (i : Instr) : State :=
  match i with
  | .colAssert => (s.standAt .sAssert).columnReady
  | .settle => s.standAt .sSettle1
  | .rowSample => (s.standAt .sSample).columnReady
  | .colDeassert => (s.standAt .sDeassert).columnReady
  | .colNext => s.standAt .sNext
  | .dbfPump =>
    { s.standAt .sPump with
      raw :=
        match wholeRaw s.raw with
        | some _ => s.raw
        | none => (allOpen _ _).map some }
  | .bootCheck => (s.standAt .bCheck).debReady
  | .bootEnter => s.standAt .bEnter
  | .tmrArmFirst => { s.standAt .bArm with seqBoot := true }
  | .tmrArmPeriod => { s.standAt .lRearm with seqBoot := false }
  | .tmrWait => s.standAt .lWait
  | .layerSel => (s.standAt .lLayer).debReady
  | .encInit => s.standAt .lEncInit
  | .encCellSkip =>
    { s.standAt .lEncCell with
      deb := some (allOpen _ _)
      seqK := if s.seqK < cellCount s.cfg.val then s.seqK else 0 }
  | .encCellEmpty => (s.standAt .lEncCell).cellReady fun k => decide (k = .empty)
  | .encCellMod =>
    { (s.standAt .lEncCell).cellReady fun k => decide (classCode k = 0b01) with
      modifier := some (s.modifier.getD 0x00) }
  | .encCellSent => (s.standAt .lEncCell).cellReady fun k => decide (k = .sentinel)
  | .encCellKey =>
    { (s.standAt .lEncCell).cellReady fun k => decide (k = .normal) with slots := some (filled 0x00) }
  | .encCellOvf =>
    { (s.standAt .lEncCell).cellReady fun k => decide (k = .normal) with
      slots := some (filled s.cfg.val.kcRollover) }
  | .encDone =>
    { s.standAt .lEncDone with
      modifier := some (s.modifier.getD 0x00)
      slots := some (s.slots.getD (filled 0x00)) }
  | .csEnter => s.standAt .lCsEnter
  | .commit => { s.standAt .lCommit with rep := some (s.rep.getD 0) }
  | .pushSuppress => { s.standAt .lPush with rep := some s.lastSent }
  | .pushOk => { (s.standAt .lPush).repChanged with pushIn := .ok :: s.pushIn }
  | .pushWouldBlock => { (s.standAt .lPush).repChanged with pushIn := .wouldBlock :: s.pushIn }
  | .pushHard kind => { (s.standAt .lPush).repChanged with pushIn := .hard kind :: s.pushIn }
  | .csExit => s.standAt .lCsExit
  | .irqEnter =>
    { s with booted := false, inIrq := false, mask := false, irqPending := true, moves := .irqEnter :: s.moves }
  | .getReportInput id => s.handlerMoves (.request (.getReport .input id))
  | .getReportUnsup type id => s.handlerMoves (.request (.getReport type id))
  | .setReportLed payload => s.handlerMoves (.request (.setReport .output 0 [payload]))
  | .setReportUnsup type id payload => s.handlerMoves (.request (.setReport type id payload))
  | .getDescriptor => s.handlerMoves (.request .getDescriptor)
  | .irqExit => s.handlerMoves .irqExit

end Sys2Proof.Machine
end

