-- ==== Sys2Proof/Machine/Step.lean ====
section
/-!
DEFINITION. One step of the machine, and the placement of a table word.
-/

namespace Sys2Proof.Machine

/-- One step of one agent (spec 00_scope R9): the move that comes next is taken. Once BOOTED = 1 there is no step (10_state
R39). -/
def step (s : State) : Host.Outcome State Fault Refusal :=
  if s.booted then .fault .booted else takeMove exec (nextMove s) s.useMove

/-- `s` with the instruction of a table word placed so that the next step fetches and runs it (log 13). The microprogram is a
constant, so what is placed is the sequencer's position, the agent's turn and the selectors' values. A word that is no
instruction places nothing: no agent can issue it (30_encoding R106). -/
def State.withFetchWord (s : State) (nbits w : Nat) : State :=
  match decodeTableWord nbits w with
  | some i => s.ready i
  | none => s

end Sys2Proof.Machine
end

