-- ==== Sys2Proof/Safety.lean ====
section
/-!
DEFINITION. The terms claims are stated in: runs, the invariants of the block, the pure encoder of spec 43 R169 and R170, the
fixed expansions of 30 R110, what each context may write (10_state R44), and the premises a claim may name (40 R129, 41 R143,
60 R245, 45 R217).
-/

namespace Sys2Proof.Machine

/-- `t` is reached from `s` by zero or more steps. -/
inductive Reaches (s : State) : State → Prop where
  | refl : Reaches s s
  | tail {t u : State} (h : Reaches s t) (hs : step t = .next u) : Reaches s u

/-- The state with a scripted environment: who moves, what RowRead and the pushes answer. -/
def State.withEnv (s : State) (moves : List Move) (rows : List (Column s.cfg)) (pushes : List PushRes) : State :=
  { s with moves := moves, rowsIn := rows, pushIn := pushes }

/-- The next `n` moves are the poll context's. -/
def pollsNext (n : Nat) (s : State) : Prop := ∃ rest, s.moves = List.replicate n .poll ++ rest

/-- `n` steps, stopping at the first fault or refusal. -/
def runSteps (n : Nat) (s : State) : Out :=
  match n with
  | 0 => .next s
  | n + 1 =>
    match step s with
    | .next t => runSteps n t
    | .fault r => .fault r
    | .refused r => .refused r

/-- The poll context may take a step and stands at label `l` (45 R200). -/
def pollAt (l : Label) (s : State) : Prop := s.inIrq = false ∧ s.booted = false ∧ s.seqPc = l

/-- The interrupt handler runs (44 R180). -/
def inHandlerNow (s : State) : Prop := s.inIrq = true ∧ s.booted = false

/-- The cell ENC_CELL visits, `cell(SEQ.k)` (43 R161). -/
def visitedCell (s : State) : Cell := cellOf s.cfg.val s.seqK

/-- ENC_CELL visits an asserted cell that maps to key code `kc` under the selected layer (43 R161). -/
def visitsKey (kc : Byte) (s : State) : Prop :=
  (∃ m, s.deb = some m ∧ arrayAt m (visitedCell s) = some true) ∧
  (∃ l, s.layer = some l ∧ tableRead s.cfg.val l (visitedCell s) = some kc)

/-- The label after the cell ENC_CELL visits (43 R161). -/
def labelAfterCell (s : State) : Label := if s.seqK + 1 < cellCount s.cfg.val then .lEncCell else .lEncDone

/-! ### Labels -/

/-- The labels of one column of a scan. -/
def columnLabels : List Label := [.sAssert, .sSettle1, .sSample, .sDeassert, .sSettle2, .sNext]

/-- The labels of a scan. -/
def scanLabels : List Label := columnLabels ++ [.sPump]

/-- The labels that stand before the loop only. -/
def bootLabels : List Label := [.bCheck, .bEnter, .bArm]

/-- The labels of the loop only. -/
def loopLabels : List Label :=
  [.lWait, .lLayer, .lEncInit, .lEncCell, .lEncDone, .lCsEnter, .lCommit, .lPush, .lCsExit, .lRearm]

/-- The labels at which the column line of SEQ.c is asserted. -/
def assertedLabels : List Label := [.sSettle1, .sSample, .sDeassert]

/-- The labels inside the critical section: after CS_ENTER, up to CS_EXIT. -/
def criticalLabels : List Label := [.lCommit, .lPush, .lCsExit]

/-- How many steps of the poll context end the critical section from a label inside it, CS_EXIT among them. -/
def stepsToUnmask (l : Label) : Nat :=
  match l with
  | .lCommit => 3
  | .lPush => 2
  | .lCsExit => 1
  | .sAssert | .sSettle1 | .sSample | .sDeassert | .sSettle2 | .sNext | .sPump | .bCheck | .bEnter | .bArm
  | .lWait | .lLayer | .lEncInit | .lEncCell | .lEncDone | .lCsEnter | .lRearm => 0

/-! ### Invariants -/

/-- How many columns of RAW are written at the sequencer's position (10_state R23, 40 R130). -/
def columnsSampled (s : State) : Nat :=
  if s.seqPc ∈ [Label.sAssert, .sSettle1, .sSample] then s.seqC
  else if s.seqPc ∈ [Label.sDeassert, .sSettle2, .sNext] then s.seqC + 1
  else if s.seqPc = .sPump then s.cfg.val.ncols
  else 0

/-- The levels of the column lines at the sequencer's position: one line at most (10_state R21, 70 R271). -/
def columnLevels (s : State) : Vector Bool s.cfg.val.ncols :=
  if s.seqPc ∈ assertedLabels then (Vector.replicate s.cfg.val.ncols false).setIfInBounds s.seqC true
  else Vector.replicate s.cfg.val.ncols false

/-- The sequencer's registers stay in their ranges, SEQ.boot tells the start-up from the loop, MASK is 1 exactly inside the
critical section, no handler runs there, and BOOTED stands at B_ENTER (10_state R31, R32, R35, R37, R39, 45 R203). -/
structure SequencerInv (s : State) : Prop where
  column_range : if s.seqPc ∈ columnLabels then s.seqC < s.cfg.val.ncols else s.seqC = s.cfg.val.ncols
  cell_range : if s.seqPc = .lEncCell then s.seqK < cellCount s.cfg.val else s.seqK ≤ cellCount s.cfg.val
  boot_phase : s.seqPc ∈ bootLabels → s.seqBoot = true
  loop_phase : s.seqPc ∈ loopLabels → s.seqBoot = false
  mask_critical : s.mask = true ↔ s.seqPc ∈ criticalLabels
  handler_unmasked : s.inIrq = true → s.mask = false
  booted_at_enter : s.booted = true → s.seqPc = .bEnter ∧ s.inIrq = false

/-- What the scanner's registers hold at each position: at most one asserted column line, and exactly the columns sampled in
this scan written in RAW (10_state R21, R23, 40 R130). -/
structure ScannerInv (s : State) : Prop where
  levels : s.col = columnLevels s
  sampled : ∀ c (h : c < s.cfg.val.ncols), s.raw[c] ≠ none ↔ c < columnsSampled s

/-- The slots hold normal keys from the left and zeros after them, or six times one Sentinel (43 R172). -/
def SlotShape (c : Cfg) (sl : Slots) : Prop :=
  (∃ n, n ≤ 6 ∧ ∀ i (h : i < 6), if i < n then classOf c sl[i] = .normal else sl[i] = 0x00) ∨
  (∃ b, classOf c b = .sentinel ∧ sl = filled b)

/-- Every register is written before the label that reads it, and written slots have one of the two shapes (10_state R47, 43
R172). -/
structure PipelineInv (s : State) : Prop where
  deb_written : s.seqPc ∉ scanLabels → s.deb ≠ none
  layer_written : s.seqPc ∈ [Label.lEncInit, .lEncCell] → s.layer ≠ none
  modifier_written : s.seqPc ∈ [Label.lEncCell, .lEncDone] → s.modifier ≠ none
  slots_written : s.seqPc ∈ [Label.lEncCell, .lEncDone] → s.slots ≠ none
  slots_shape : ∀ sl, s.slots = some sl → SlotShape s.cfg.val sl
  rep_written : s.seqPc ∈ [Label.lCsEnter, .lCommit, .lPush] → s.rep ≠ none

/-- The timer: never armed before the loop, always armed in it, and expired during every poll cycle from the wait to the re-arm
(10_state R38, 45 R204, 70 R279). -/
structure TimerInv (s : State) : Prop where
  boot_idle : s.seqBoot = true → s.tmrArmed = false
  loop_armed : s.seqBoot = false → s.tmrArmed = true
  expired_armed : s.tmrExpired = true → s.tmrArmed = true
  cycle_expired : s.seqBoot = false → s.seqPc ≠ .lWait → s.tmrExpired = true

/-- The invariant of the block. -/
structure Inv (s : State) : Prop where
  sequencer : SequencerInv s
  scanner : ScannerInv s
  pipeline : PipelineInv s
  timer : TimerInv s

/-- A report that the encoder can have built, or the zero report of reset: byte 1 is 0x00 and bytes 2 to 7 have one of the two
shapes (30 R90, R104, 43 R172). -/
def ReportShape (c : Cfg) (r : Report) : Prop := ∃ m sl, SlotShape c sl ∧ r = assembleReport m sl

/-- REP, BR_REPORT and LAST_SENT hold such reports only. -/
structure ReportInv (s : State) : Prop where
  slots_shape : ∀ sl, s.slots = some sl → SlotShape s.cfg.val sl
  rep_shape : ∀ r, s.rep = some r → ReportShape s.cfg.val r
  bridge_shape : ReportShape s.cfg.val s.brReport
  sent_shape : ReportShape s.cfg.val s.lastSent

/-- The calls of `XPORT.push` among the events. -/
def isPush (e : Event) : Bool :=
  match e with
  | .push _ _ => true
  | .pCol _ _ | .dbfStep | .tmrArm _ | .hardFailure _ | .led _ _ | .bootEnter => false

/-- The calls of `TMR.arm` among the events. -/
def isArm (e : Event) : Bool :=
  match e with
  | .tmrArm _ => true
  | .pCol _ _ | .dbfStep | .push _ _ | .hardFailure _ | .led _ _ | .bootEnter => false

/-- How many pushes stand after the last arm of the timer among the events. -/
def pushesSinceArm (es : List Event) : Nat :=
  es.foldl (fun n e => if isArm e then 0 else if isPush e then n + 1 else n) 0

/-- Every push so far belongs to a timer period of its own (70 R272): at no point in the events have there been two pushes since
the timer was last armed, so there is at most one between each two arms and after the last; there is none before the first arm,
and none since the last before the cycle's PUSH. -/
structure PushInv (s : State) : Prop where
  one_a_period : ∀ es, es <+: s.events → pushesSinceArm es ≤ 1
  armed_first : ∀ es, es <+: s.events → es.countP isArm = 0 → es.countP isPush = 0
  boot_unarmed : s.seqBoot = true ↔ s.events.countP isArm = 0
  not_yet : s.seqPc ∉ [Label.lCsExit, .lRearm] → pushesSinceArm s.events = 0

/-! ### The pure encoder -/

/-- The key codes of the asserted cells under layer `l`, in visiting order (43 R161, 20_memory R69). -/
def pressedKeys (c : Cfg) (l : Layer) (m : Matrix c.ncols c.nrows) : List Byte :=
  (List.range (cellCount c)).filterMap fun k =>
    if arrayAt m (cellOf c k) = some true then tableRead c l (cellOf c k) else none

/-- The pressed normal keys, in visiting order, one for each asserted cell (43 R171). -/
def normalKeys (c : Cfg) (l : Layer) (m : Matrix c.ncols c.nrows) : List Byte :=
  (pressedKeys c l m).filter fun k => decide (classOf c k = .normal)

/-- The OR of the masks of the pressed modifiers (43 R170, 30 R99). -/
def modifierByte (c : Cfg) (l : Layer) (m : Matrix c.ncols c.nrows) : Byte :=
  ((pressedKeys c l m).map (modmaskOf c)).foldl (fun a b => a ||| b) 0x00

/-- Keys packed into the slots from the left, the remainder zero (30 R90). -/
def leftPacked (ks : List Byte) : Slots := Vector.ofFn fun i => ks.getD i.val 0x00

/-- One cell's effect on the slots (43 R162 to R167). -/
def visitSlots (c : Cfg) (sl : Slots) (k : Byte) : Slots :=
  match classOf c k with
  | .empty | .modifier _ => sl
  | .sentinel => filled k
  | .normal => if slotsFull sl then filled c.kcRollover else putKey sl k

/-- The slots after the whole walk (43 R169). -/
def encodedSlots (c : Cfg) (l : Layer) (m : Matrix c.ncols c.nrows) : Slots :=
  (pressedKeys c l m).foldl (visitSlots c) (filled 0x00)

/-- The report of a Debounced Matrix under a layer (43 R169). -/
def encodedReport (c : Cfg) (l : Layer) (m : Matrix c.ncols c.nrows) : Report :=
  assembleReport (modifierByte c l m) (encodedSlots c l m)

/-- The layer a Debounced Matrix selects (42 R150). -/
def selectedLayer (c : Cfg) (m : Matrix c.ncols c.nrows) : Layer := if arrayAt m c.fnPos = some true then .fn else .normal

/-! ### Fixed expansions (30 R110) -/

/-- The operations of one column of a scan. -/
def columnOps : List Uop := [.colAssert, .settle, .rowSample, .colDeassert, .settle, .colNext]

/-- `SCAN` (40 R126). -/
def scanOps (c : Cfg) : List Uop := (List.replicate c.ncols columnOps).flatten ++ [.dbfPump]

/-- `ENCODE` (43 R169). -/
def encodeOps (c : Cfg) : List Uop := .encInit :: List.replicate (cellCount c) .encCell ++ [.encDone]

/-- `TRANSFER`. -/
def transferOps : List Uop := [.csEnter, .commit, .push, .csExit]

/-- `CYCLE`, from the wait that sees the expiry to the re-arm. -/
def cycleOps (c : Cfg) : List Uop :=
  .tmrWait :: scanOps c ++ .layerSel :: encodeOps c ++ transferOps ++ [.tmrArm]

/-- The operations the poll context issues in the next `n` steps, as far as they go. -/
def opsIssued (n : Nat) (s : State) : List Uop :=
  match n with
  | 0 => []
  | n + 1 =>
    match step s with
    | .next t => microprogram s.seqPc :: opsIssued n t
    | .fault _ => []
    | .refused _ => []

/-- The column events of a scan: assert and de-assert, one column at a time, ascending (20_memory R80). -/
def scanEvents (c : Cfg) : List Event :=
  (List.range c.ncols).flatMap fun i => [.pCol i true, .pCol i false]

/-! ### What each context may write -/

/-- COL as a list: registers typed by the configuration are compared across two states through their cells. -/
def State.colCells (s : State) : List Bool := s.col.toList

/-- The cells of a matrix, column by column. -/
def gridCells {α : Type} {ncols nrows : Nat} (m : Grid α ncols nrows) : List (List α) := m.toList.map Vector.toList

/-- The cells of RAW, column by column. -/
def State.rawCells (s : State) : List (Option (List Bool)) := s.raw.toList.map (Option.map Vector.toList)

/-- The cells of DBS. -/
def State.dbsCells (s : State) : List (List (List Bool)) := s.dbs.map gridCells

/-- The cells of DEB. -/
def State.debCells (s : State) : Option (List (List Bool)) := s.deb.map gridCells

/-- The poll context's registers are the same in both states (10_state R44: what the interrupt context never writes). -/
def SamePollRegisters (s t : State) : Prop :=
  t.cfg = s.cfg ∧ t.colCells = s.colCells ∧ t.rawCells = s.rawCells ∧ t.dbsCells = s.dbsCells ∧
  t.debCells = s.debCells ∧ t.layer = s.layer ∧
  t.modifier = s.modifier ∧ t.slots = s.slots ∧ t.rep = s.rep ∧ t.lastSent = s.lastSent ∧
  t.seqPc = s.seqPc ∧ t.seqC = s.seqC ∧ t.seqK = s.seqK ∧ t.seqBoot = s.seqBoot ∧
  t.brReport = s.brReport ∧ t.mask = s.mask ∧ t.tmrArmed = s.tmrArmed ∧ t.tmrExpired = s.tmrExpired ∧
  t.booted = s.booted

/-- An instruction of the interrupt context (30 R98). -/
def ofIrqContext (i : Instr) : Bool :=
  match i.uop with
  | .irqEnter | .getReport | .setReport | .getDescriptor | .irqExit => true
  | .colAssert | .settle | .rowSample | .colDeassert | .colNext | .dbfPump | .bootCheck | .bootEnter
  | .tmrArm | .tmrWait | .layerSel | .encInit | .encCell | .encDone | .csEnter | .commit | .push
  | .csExit => false

/-- An outcome with its next state changed by `f`. -/
def mapNext (f : State → State) (o : Out) : Out :=
  match o with
  | .next s => .next (f s)
  | .fault r => .fault r
  | .refused r => .refused r

/-- The setter events that reach an LED collaborator: none where none is present (44 R184, 93 U12). -/
def deliveredSetters (s : State) : List Event :=
  if s.cfg.val.ledPresent then
    s.events.filter fun e =>
      match e with
      | .led _ _ => true
      | .pCol _ _ | .dbfStep | .tmrArm _ | .push _ _ | .hardFailure _ | .bootEnter => false
  else []

/-! ### Premises a claim may name; no step assumes one -/

/-- `ENV_IDEAL` at a state (40 R129): where the next step is a ROW_SAMPLE, the levels that step reads are those of the closed
switches of its column. The step runs the operation once the move is used up, so its RowRead is answered there. `closed` is the
switches at that step. -/
def EnvIdeal (closed : Nat → Nat → Bool) (s : State) : Prop :=
  s.seqPc = .sSample → s.booted = false → nextMove s = .poll →
    ∀ r (h : r < s.cfg.val.nrows), (rowAnswer s.useMove)[r] = closed s.seqC r

/-- `DBF_FIRST_PASS` (41 R143). -/
def DbfFirstPass (c : Cfg) : Prop := ∀ m, (dbfAnswer c c.dbf.dbs0 m).2 = m

/-- `DBF_PASS` (41 R143). -/
def DbfPass (c : Cfg) : Prop := ∀ d m, (dbfAnswer c d m).2 = m

/-- The filter state after a list of inputs. -/
def filterAfter (c : Cfg) (d : FilterState c.ncols c.nrows) (ms : List (Matrix c.ncols c.nrows)) :
    FilterState c.ncols c.nrows :=
  ms.foldl (fun d m => (dbfAnswer c d m).1) d

/-- `DBF_SETTLES(n)` (41 R143): after `n` equal inputs, the last among them, the output is that input. R143 gives `n` no lower
bound; that the property says something from `n = 1` on, and nothing for `n = 0`, is the model's (DESIGN CHOICE, log 23). -/
def DbfSettles (n : Nat) (c : Cfg) : Prop :=
  ∀ ms m, 1 ≤ n → (dbfAnswer c (filterAfter c c.dbf.dbs0 (ms ++ List.replicate (n - 1) m)) m).2 = m

/-- Fairness of the timer (60 R245): from every state reached, an armed timer is expired in some later state, or the run can
end at the bootloader only. -/
def TimerFair (s : State) : Prop :=
  ∀ t, Reaches s t → t.tmrArmed = true → ∃ u, Reaches t u ∧ (u.tmrExpired = true ∨ u.booted = true)

/-- Every handler is finite (45 R217): from every state reached in a handler, a later state is outside. -/
def HandlersFinite (s : State) : Prop := ∀ t, Reaches s t → t.inIrq = true → ∃ u, Reaches t u ∧ u.inIrq = false

end Sys2Proof.Machine
end

