-- ==== Sys2Proof/Certificates/Slice0/Obligations.lean ====
section
/-!
DEFINITION. The statements for the provers. Each follows a numbered rule of spec/; a statement that rests on a choice of the
model or on a decision or derivation the spec marks as its own says so.
-/

open Sys2Proof Sys2Proof.Machine

/-! ### Encoding -/

/-- Every well-formed instruction of the table is what its record decodes to (30 R96 to R98; the record's layout is the
model's, log 8). -/
def Obligations.DecodeOfEncodeIsTheInstruction : Prop :=
  ∀ i : Instr, i.wf = true → decode (encode i) = .ok i

/-- A record decodes to one well-formed instruction only if it is that instruction's record: no two records mean the same
(30 R96 to R98; the record's layout is the model's, log 8). -/
def Obligations.DecodedRecordIsTheEncoding : Prop :=
  ∀ (bytes : List Byte) (i : Instr), decode bytes = .ok i → i.wf = true ∧ encode i = bytes

/-- The codes 00000, 10011 to 10111 and 11101 to 11111 and no others name no operation; the decoder refuses them by name and
no label issues them (30 R106, the spec's decision D36). -/
def Obligations.IllegalCodesAreRefusedByName : Prop :=
  (∀ op : OpCode, Uop.ofCode op = none ↔
    op = 0b00000 ∨ (0b10011 ≤ op.toNat ∧ op.toNat ≤ 0b10111) ∨ (0b11101 ≤ op.toNat ∧ op.toNat ≤ 0b11111)) ∧
  (∀ (op : OpCode) (sel arg id : Byte) (payload : List Byte), Uop.ofCode op = none →
    decode (((0 : BitVec 3) ++ op) :: sel :: arg :: id :: payload) = .error (.illegalOp op)) ∧
  (∀ l : Label, Uop.ofCode (microprogram l).code = some (microprogram l))

/-- Written-out words decode to the operations they stand for (30 R97, R98, R93; selector places are the model's, log 8). -/
def Obligations.WrittenOutWordsDecode : Prop :=
  decodeTableWord 8 0b00001 = some .colAssert ∧ decodeTableWord 8 0b00110 = some .dbfPump ∧
  decodeTableWord 8 0b01011 = some .layerSel ∧ decodeTableWord 8 0b01110 = some .encDone ∧
  decodeTableWord 8 0b10000 = some .commit ∧ decodeTableWord 8 0b11000 = some .irqEnter ∧
  decodeTableWord 8 0b11011 = some .getDescriptor ∧ decodeTableWord 8 0b10011 = none ∧
  decode [0b01001, 1, 0, 0] = .ok .tmrArmFirst ∧ decode [0b01001, 0, 0, 0] = .ok .tmrArmPeriod ∧
  decode [0b01101, 0b0111, 0, 0] = .ok .encCellKey ∧ decode [0b10001, 1, 7, 0] = .ok (.pushHard .invalidState) ∧
  decode [0b11001, 0, 0, 5] = .ok (.getReportInput 5) ∧ decode [0b11010, 1, 0, 0, 0x1F] = .ok (.setReportLed 0x1F)

/-! ### The step -/

/-- A step whose move issues the record of instruction `i` is `exec i` after the move has been used up. -/
def Obligations.StepRunsTheDecodedInstruction : Prop :=
  ∀ (s : State) (m : Move) (bytes : List Byte) (i : Instr),
    s.booted = false → nextMove s = m → m ≠ .raiseIrq → m ≠ .tick →
    fetchMove m s.useMove = .ok bytes → decode bytes = .ok i → step s = exec i s.useMove

/-- Whatever a move of the poll context issues is the record of a well-formed form of the operation the microprogram has at
its label; the form of PUSH issued for a changed report is the one of the environment's draw, and any result can come; a host
request's record is a well-formed request (45 R200, R207, 30 R96; the script of the draws is the model's, log 5). -/
def Obligations.IssuedRecordsDecode : Prop :=
  (∀ (s : State) (bytes : List Byte), fetchMove .poll s = .ok bytes →
    ∃ i : Instr, decode bytes = .ok i ∧ i.wf = true ∧ i.uop = microprogram s.seqPc) ∧
  (∀ (s : State) (r : Report) (res : PushRes) (rest : List PushRes), s.seqPc = .lPush → s.rep = some r →
    r ≠ s.lastSent → s.pushIn = res :: rest →
    fetchMove .poll s =
      .ok (encode
        (match res with
         | .ok => .pushOk
         | .wouldBlock => .pushWouldBlock
         | .hard kind => .pushHard kind))) ∧
  (∀ (s : State) (r : Request), ∃ i : Instr, fetchMove (.request r) s = .ok (encode i) ∧
    decode (encode i) = .ok i ∧ i.wf = true ∧ ofIrqContext i = true)

/-- The environment's two moves, where they are proposed and enabled, write IRQ_PENDING and TMR.expired and nothing else of the
block; so the step of the poll context after an expiry at the wait starts a scan (45 R222, R204; the script the moves come
from is the model's, log 5). -/
def Obligations.EnvironmentMovesWriteOneFlag : Prop :=
  (∀ (s : State) (rest : List Move), s.booted = false → s.moves = .raiseIrq :: rest →
    step s = .next { s with irqPending := true, moves := rest, draws := s.draws + 1 }) ∧
  (∀ (s : State) (rest : List Move), s.booted = false → s.tmrArmed = true → s.tmrExpired = false →
    s.moves = .tick :: rest →
    step s = .next { s with tmrExpired := true, moves := rest, draws := s.draws + 1 }) ∧
  (∀ (s : State) (rest : List Move), pollAt .lWait s → s.tmrArmed = true → s.tmrExpired = false →
    s.moves = .tick :: .poll :: rest →
    runSteps 2 s =
      .next { s with tmrExpired := true, seqC := 0, seqPc := .sAssert, moves := rest, draws := s.draws + 2 })

/-- Once BOOTED = 1 no step is taken and no operation of either context runs (10_state R39, decision D27; the fault's name is
the model's, log 10). -/
def Obligations.BootedIsTerminal : Prop :=
  ∀ s : State, s.booted = true → step s = .fault .booted ∧ ∀ (i : Instr) (t : State), exec i s ≠ .next t

/-- An operation that runs was enabled: the poll context's outside a handler and at a label that issues it, IRQ_ENTER under
R215's condition, everything else of the interrupt context inside a handler (45 R200, R215, 44 R180). -/
def Obligations.OperationsRunOnlyWhereIssued : Prop :=
  ∀ (i : Instr) (s t : State), exec i s = .next t →
    s.booted = false ∧
    (ofIrqContext i = false → s.inIrq = false ∧ microprogram s.seqPc = i.uop) ∧
    (i = .irqEnter → s.irqPending = true ∧ s.mask = false ∧ s.inIrq = false) ∧
    (ofIrqContext i = true → i ≠ .irqEnter → s.inIrq = true)

/-- While MASK = 1 the interrupt cannot start, whatever the environment proposes; while the handler runs no operation of the
poll context runs (60 R238, 10_state R37). -/
def Obligations.MaskAndHandlerExcludeEachOther : Prop :=
  (∀ s : State, s.mask = true → (s.booted = false → nextMove s ≠ .irqEnter) ∧ ∀ t, exec .irqEnter s ≠ .next t) ∧
  (∀ s : State, s.inIrq = true → (s.booted = false → nextMove s ≠ .poll) ∧
    ∀ (i : Instr) (t : State), ofIrqContext i = false → exec i s ≠ .next t)

/-! ### Reset and unwritten registers -/

/-- The reset state of every admitted configuration holds the values of 70 R260 (the spec's decision D14). The model's own
fields are not spoken of. -/
def Obligations.ResetValues : Prop :=
  ∀ w : WfCfg,
    let s := State.resetWith w
    s.cfg = w ∧ s.col = Vector.replicate w.val.ncols false ∧ s.raw = Vector.replicate w.val.ncols none ∧
    s.dbs = w.val.dbf.dbs0 ∧ s.deb = none ∧ s.layer = none ∧ s.modifier = none ∧ s.slots = none ∧
    s.rep = none ∧ reportBytes s.lastSent = List.replicate 8 0x00 ∧
    reportBytes s.brReport = List.replicate 8 0x00 ∧ s.led = ledsOfByte 0x00 ∧ s.mask = false ∧
    s.irqPending = false ∧ s.inIrq = false ∧ s.tmrArmed = false ∧ s.tmrExpired = false ∧
    s.booted = false ∧ s.seqPc = .sAssert ∧ s.seqC = 0 ∧ s.seqK = 0 ∧ s.seqBoot = true

/-- A read of an unwritten register is a fault that names the register (10_state R47, 93 U16). -/
def Obligations.UnwrittenRegisterReadFaults : Prop :=
  (∀ s, pollAt .sPump s → none ∈ s.raw → exec .dbfPump s = .fault (.unwritten .raw)) ∧
  (∀ s, pollAt .bCheck s → s.deb = none → exec .bootCheck s = .fault (.unwritten .deb)) ∧
  (∀ s, pollAt .lLayer s → s.deb = none → exec .layerSel s = .fault (.unwritten .deb)) ∧
  (∀ s i, pollAt .lEncCell s → i.uop = .encCell → s.deb = none → exec i s = .fault (.unwritten .deb)) ∧
  (∀ s i (m : MatrixOf s.cfg), pollAt .lEncCell s → i.uop = .encCell → s.deb = some m → arrayAt m (visitedCell s) = some true →
    s.layer = none → exec i s = .fault (.unwritten .layer)) ∧
  (∀ s i kc, pollAt .lEncCell s → i.uop = .encCell → visitsKey kc s → classOf s.cfg.val kc = .normal →
    s.slots = none → exec i s = .fault (.unwritten .slots)) ∧
  (∀ s kc mask, pollAt .lEncCell s → visitsKey kc s → classOf s.cfg.val kc = .modifier mask → s.modifier = none →
    exec .encCellMod s = .fault (.unwritten .modifier)) ∧
  (∀ s, pollAt .lEncDone s → s.modifier = none → exec .encDone s = .fault (.unwritten .modifier)) ∧
  (∀ s, pollAt .lEncDone s → s.modifier ≠ none → s.slots = none → exec .encDone s = .fault (.unwritten .slots)) ∧
  (∀ s, pollAt .lCommit s → s.rep = none → exec .commit s = .fault (.unwritten .rep)) ∧
  (∀ s i, pollAt .lPush s → i.uop = .push → s.rep = none → exec i s = .fault (.unwritten .rep))

/-! ### The operations: result and frame. Every equation gives the whole next state; the code is 30 R97's or R98's. -/

/-- COL_ASSERT and COL_DEASSERT write the current column's line, emit its level and move on (40 R122, R125). -/
def Obligations.ColumnDriveOperations : Prop :=
  (∀ s : State, pollAt .sAssert s → s.seqC < s.cfg.val.ncols →
    exec .colAssert s =
      .next { s with col := s.col.setIfInBounds s.seqC true, events := s.events ++ [.pCol s.seqC true], seqPc := .sSettle1 }) ∧
  (∀ s : State, pollAt .sDeassert s → s.seqC < s.cfg.val.ncols →
    exec .colDeassert s =
      .next { s with col := s.col.setIfInBounds s.seqC false, events := s.events ++ [.pCol s.seqC false], seqPc := .sSettle2 }) ∧
  (∀ l : Label, microprogram l = .colAssert ↔ l = .sAssert) ∧
  (∀ l : Label, microprogram l = .colDeassert ↔ l = .sDeassert) ∧
  Instr.colAssert.uop.code = 0b00001 ∧ Instr.colDeassert.uop.code = 0b00100

/-- SETTLE changes SEQ.pc and nothing else, at both of its labels (40 R123). -/
def Obligations.SettleChangesOnlyThePosition : Prop :=
  (∀ s : State, pollAt .sSettle1 s → exec .settle s = .next { s with seqPc := .sSample }) ∧
  (∀ s : State, pollAt .sSettle2 s → exec .settle s = .next { s with seqPc := .sNext }) ∧
  (∀ l : Label, microprogram l = .settle ↔ l = .sSettle1 ∨ l = .sSettle2) ∧
  Instr.settle.uop.code = 0b00010

/-- ROW_SAMPLE stores what the environment presents, NROWS levels, as column SEQ.c of RAW, whatever it presents (40 R124,
decision D5; the two model fields hold the answers, log 5). -/
def Obligations.RowSampleStoresThePresentedColumn : Prop :=
  (∀ s : State, pollAt .sSample s → s.seqC < s.cfg.val.ncols →
    exec .rowSample s =
      .next { s with
        raw := s.raw.setIfInBounds s.seqC (some (rowAnswer s)), rowsIn := s.rowsIn.tail, draws := s.draws + 1,
        seqPc := .sDeassert }) ∧
  (∀ s : State, (rowAnswer s).toList.length = s.cfg.val.nrows) ∧
  (∀ (s : State) (bits : Column s.cfg) (rest : List (Column s.cfg)), s.rowsIn = bits :: rest → rowAnswer s = bits) ∧
  Instr.rowSample.uop.code = 0b00011

/-- COL_NEXT advances the column and compares the new value (40 R127, decision D1). -/
def Obligations.ColNextComparesTheNewColumn : Prop :=
  (∀ s : State, pollAt .sNext s →
    exec .colNext s =
      .next { s with
        seqC := s.seqC + 1, seqPc := if s.seqC + 1 < s.cfg.val.ncols then .sAssert else .sPump }) ∧
  Instr.colNext.uop.code = 0b00101

/-- DBF_PUMP hands the whole Raw Matrix to the filter, stores its state and its matrix, makes RAW unwritten and returns to the
caller of the scan (41 R141). The filter's matrix has the shape of its input (41 R140): that is the type the model gives it
(log 12). -/
def Obligations.DbfPumpHandsOverTheWholeMatrix : Prop :=
  (∀ (s : State) (m : MatrixOf s.cfg), pollAt .sPump s → s.raw = m.map some →
    exec .dbfPump s =
      .next { s with
        dbs := (dbfAnswer s.cfg.val s.dbs m).1, deb := some (dbfAnswer s.cfg.val s.dbs m).2,
        raw := Vector.replicate s.cfg.val.ncols none, events := s.events ++ [.dbfStep],
        seqPc := if s.seqBoot = true then .bCheck else .lLayer }) ∧
  (∀ (s : State) (m : MatrixOf s.cfg), (gridCells (dbfAnswer s.cfg.val s.dbs m).2).length = s.cfg.val.ncols ∧
    ∀ column ∈ gridCells (dbfAnswer s.cfg.val s.dbs m).2, column.length = s.cfg.val.nrows) ∧
  (∀ l : Label, microprogram l = .dbfPump ↔ l = .sPump) ∧
  Instr.dbfPump.uop.code = 0b00110

/-- BOOT_CHECK reads DEB[BOOT_POS] alone (45 R201, decision D11); BOOT_ENTER emits the call and sets BOOTED (45 R203, decision
D27). -/
def Obligations.BootCheckAndEnter : Prop :=
  (∀ (s : State) (m : MatrixOf s.cfg) (b : Bool), pollAt .bCheck s → s.deb = some m →
    arrayAt m s.cfg.val.bootPos = some b →
    exec .bootCheck s = .next { s with seqPc := if b = true then .bEnter else .bArm }) ∧
  (∀ s : State, pollAt .bEnter s →
    exec .bootEnter s = .next { s with booted := true, events := s.events ++ [.bootEnter] }) ∧
  Instr.bootCheck.uop.code = 0b00111 ∧ Instr.bootEnter.uop.code = 0b01000

/-- The two forms of TMR_ARM, picked by SEQ.boot (45 R202 and R213, decisions D35 and D18). -/
def Obligations.TimerArmForms : Prop :=
  (∀ s : State, pollAt .bArm s → s.seqBoot = true →
    exec .tmrArmFirst s =
      .next { s with
        seqBoot := false, tmrArmed := true, tmrExpired := false,
        events := s.events ++ [.tmrArm s.cfg.val.tFirst], seqPc := .lWait }) ∧
  (∀ s : State, pollAt .lRearm s → s.seqBoot = false →
    exec .tmrArmPeriod s =
      .next { s with
        tmrArmed := true, tmrExpired := false,
        events := s.events ++ [.tmrArm s.cfg.val.tPeriod], seqPc := .lWait }) ∧
  (∀ s t : State, exec .tmrArmFirst s = .next t → s.seqBoot = true) ∧
  (∀ s t : State, exec .tmrArmPeriod s = .next t → s.seqBoot = false) ∧
  Instr.tmrArmFirst.uop.code = 0b01001 ∧ Instr.tmrArmPeriod.uop.code = 0b01001

/-- TMR_WAIT starts a scan when the flag is set and stays when it is not; it does not clear the flag (45 R204). -/
def Obligations.TimerWaitPollsTheFlag : Prop :=
  (∀ s : State, pollAt .lWait s → s.tmrExpired = true →
    exec .tmrWait s = .next { s with seqC := 0, seqPc := .sAssert }) ∧
  (∀ s : State, pollAt .lWait s → s.tmrExpired = false → exec .tmrWait s = .next s) ∧
  (∀ l : Label, microprogram l = .tmrWait ↔ l = .lWait) ∧
  Instr.tmrWait.uop.code = 0b01010

/-- LAYER_SEL selects FN exactly when DEB[FN_POS] is asserted (42 R150) and does not latch: with any earlier LAYER it ends in
the same way, in the same state (42 R151). -/
def Obligations.LayerSelectReadsOneCell : Prop :=
  (∀ (s : State) (m : MatrixOf s.cfg), pollAt .lLayer s → s.deb = some m → arrayAt m s.cfg.val.fnPos = some true →
    exec .layerSel s = .next { s with layer := some .fn, seqPc := .lEncInit }) ∧
  (∀ (s : State) (m : MatrixOf s.cfg), pollAt .lLayer s → s.deb = some m → arrayAt m s.cfg.val.fnPos = some false →
    exec .layerSel s = .next { s with layer := some .normal, seqPc := .lEncInit }) ∧
  (∀ (s : State) (layer : Option Layer), exec .layerSel { s with layer := layer } = exec .layerSel s) ∧
  (∀ l : Label, microprogram l = .layerSel ↔ l = .lLayer) ∧
  Instr.layerSel.uop.code = 0b01011

/-- ENC_INIT clears the modifier byte, all six slots and the cell index (43 R160). -/
def Obligations.EncInitClearsTheReport : Prop :=
  (∀ s : State, pollAt .lEncInit s →
    exec .encInit s =
      .next { s with
        modifier := some 0x00, slots := some (Vector.replicate 6 0x00), seqK := 0, seqPc := .lEncCell }) ∧
  firstEmpty (Vector.replicate 6 0x00) = 0 ∧
  (∀ l : Label, microprogram l = .encInit ↔ l = .lEncInit) ∧ Instr.encInit.uop.code = 0b01100

/-- ENC_CELL.SKIP on an open cell and ENC_CELL.EMPTY on an asserted cell of class Empty advance and do nothing else (43 R162,
R163). -/
def Obligations.EncCellSkipAndEmptyOnlyAdvance : Prop :=
  (∀ (s : State) (m : MatrixOf s.cfg), pollAt .lEncCell s → s.deb = some m → arrayAt m (visitedCell s) = some false →
    exec .encCellSkip s = .next { s with seqK := s.seqK + 1, seqPc := labelAfterCell s }) ∧
  (∀ (s : State) (kc : Byte), pollAt .lEncCell s → visitsKey kc s → classOf s.cfg.val kc = .empty →
    exec .encCellEmpty s = .next { s with seqK := s.seqK + 1, seqPc := labelAfterCell s }) ∧
  Instr.encCellSkip.uop.code = 0b01101 ∧ Instr.encCellEmpty.uop.code = 0b01101

/-- ENC_CELL.MOD ORs the key's mask into MOD and leaves the slots (43 R165, decision D10); the mask has one bit (00_scope
R8 d). -/
def Obligations.EncCellModOrsTheMask : Prop :=
  (∀ (s : State) (kc mask m : Byte), pollAt .lEncCell s → visitsKey kc s →
    classOf s.cfg.val kc = .modifier mask → s.modifier = some m →
    exec .encCellMod s =
      .next { s with modifier := some (m ||| mask), seqK := s.seqK + 1, seqPc := labelAfterCell s }) ∧
  (∀ (w : WfCfg) (kc mask : Byte), classOf w.val kc = .modifier mask → ∃ i, i < 8 ∧ mask = 1#8 <<< i) ∧
  Instr.encCellMod.uop.code = 0b01101

/-- ENC_CELL.SENT fills all six slots with the mapped byte and leaves MOD; afterwards no slot is empty (43 R164, decision
D33). -/
def Obligations.EncCellSentinelFillsTheSlots : Prop :=
  (∀ (s : State) (kc : Byte), pollAt .lEncCell s → visitsKey kc s → classOf s.cfg.val kc = .sentinel →
    exec .encCellSent s =
      .next { s with slots := some (Vector.replicate 6 kc), seqK := s.seqK + 1, seqPc := labelAfterCell s }) ∧
  (∀ (w : WfCfg) (kc : Byte), classOf w.val kc = .sentinel → firstEmpty (Vector.replicate 6 kc) = 6) ∧
  Instr.encCellSent.uop.code = 0b01101

/-- ENC_CELL.KEY writes the key to the first empty slot and to no other; ENC_CELL.OVF, when no slot is empty, fills all six
with KC_ROLLOVER (43 R166 and R167, decisions D9, D10 and D37). -/
def Obligations.EncCellKeyAndOverflow : Prop :=
  (∀ (s : State) (kc : Byte) (sl : Slots) (n : Nat) (hn : n < 6), pollAt .lEncCell s → visitsKey kc s →
    classOf s.cfg.val kc = .normal → s.slots = some sl →
    (∀ i (h : i < n), sl[i] ≠ 0x00) → sl[n] = 0x00 →
    exec .encCellKey s =
      .next { s with slots := some (sl.set n kc), seqK := s.seqK + 1, seqPc := labelAfterCell s }) ∧
  (∀ (s : State) (kc : Byte) (sl : Slots), pollAt .lEncCell s → visitsKey kc s →
    classOf s.cfg.val kc = .normal → s.slots = some sl → (∀ i (h : i < 6), sl[i] ≠ 0x00) →
    exec .encCellOvf s =
      .next { s with
        slots := some (Vector.replicate 6 s.cfg.val.kcRollover), seqK := s.seqK + 1, seqPc := labelAfterCell s }) ∧
  Instr.encCellKey.uop.code = 0b01101 ∧ Instr.encCellOvf.uop.code = 0b01101

/-- At one state at most one of the six forms of ENC_CELL runs, and under the invariant one does (43 R161; the invariant is
the model's statement of 10_state R47). -/
def Obligations.ExactlyOneEncoderFormRuns : Prop :=
  (∀ (s t u : State) (i j : Instr), i.uop = .encCell → j.uop = .encCell →
    exec i s = .next t → exec j s = .next u → i = j) ∧
  (∀ s : State, Inv s → pollAt .lEncCell s → ∃ (i : Instr) (t : State), i.uop = .encCell ∧ exec i s = .next t)

/-- ENC_DONE assembles REP from MOD and SLOT, byte by byte (43 R168, 30 R101). -/
def Obligations.EncDoneAssemblesTheReport : Prop :=
  (∀ (s : State) (m : Byte) (sl : Slots), pollAt .lEncDone s → s.modifier = some m → s.slots = some sl →
    ∃ r : Report, reportBytes r = [m, 0x00, sl[0], sl[1], sl[2], sl[3], sl[4], sl[5]] ∧
      r.extractLsb' 0 8 = m ∧ r.extractLsb' 8 8 = 0#8 ∧
      (∀ i (h : i < 6), r.extractLsb' (8 * (i + 2)) 8 = sl[i]) ∧
      exec .encDone s = .next { s with rep := some r, seqPc := .lCsEnter }) ∧
  Instr.encDone.uop.code = 0b01110

/-- CS_ENTER sets MASK and CS_EXIT clears it; nothing else of the block changes (45 R205, decision D32; R211). -/
def Obligations.CriticalSectionBracket : Prop :=
  (∀ s : State, pollAt .lCsEnter s → exec .csEnter s = .next { s with mask := true, seqPc := .lCommit }) ∧
  (∀ s : State, pollAt .lCsExit s → exec .csExit s = .next { s with mask := false, seqPc := .lRearm }) ∧
  (∀ s t : State, exec .csExit s = .next t → s.irqPending = true → irqEnabled t = true) ∧
  Instr.csEnter.uop.code = 0b01111 ∧ Instr.csExit.uop.code = 0b10010

/-- COMMIT copies REP into BR_REPORT (45 R206, decisions D12 and D32). -/
def Obligations.CommitCopiesTheReport : Prop :=
  (∀ (s : State) (r : Report), pollAt .lCommit s → s.rep = some r →
    exec .commit s = .next { s with brReport := r, seqPc := .lPush }) ∧
  Instr.commit.uop.code = 0b10000

/-- PUSH.SUPPRESS: an unchanged report is not sent; none of the sending forms runs (45 R208). -/
def Obligations.PushSuppressSendsNothing : Prop :=
  (∀ s : State, pollAt .lPush s → s.rep = some s.lastSent →
    exec .pushSuppress s = .next { s with seqPc := .lCsExit } ∧
    ∀ (i : Instr) (t : State), i.uop = .push → exec i s = .next t → i = .pushSuppress) ∧
  Instr.pushSuppress.uop.code = 0b10001

/-- PUSH.OK: a changed report that the transport takes is pushed once and becomes LAST_SENT (45 R209). The use of the scripted
result and the advance of the counter are the model's (log 5). -/
def Obligations.PushOkRecordsTheReport : Prop :=
  (∀ (s : State) (r : Report), pollAt .lPush s → s.rep = some r → r ≠ s.lastSent →
    exec .pushOk s =
      .next { s with
        lastSent := r, events := s.events ++ [.push r .ok], seqPc := .lCsExit,
        pushIn := s.pushIn.tail, draws := s.draws + 1 }) ∧
  (∀ (i : Instr) (s t : State), exec i s = .next t → t.lastSent ≠ s.lastSent → i = .pushOk) ∧
  Instr.pushOk.uop.code = 0b10001

/-- Suppression: after a push that the transport took, a PUSH of the same report with that LAST_SENT is suppressed (45 R219,
derived there from R208 and R209). -/
def Obligations.RepeatedReportIsSuppressed : Prop :=
  ∀ s t u : State, exec .pushOk s = .next t → pollAt .lPush u → u.lastSent = t.lastSent → u.rep = s.rep →
    exec .pushSuppress u = .next { u with seqPc := .lCsExit } ∧
    ∀ (i : Instr) (v : State), i.uop = .push → exec i u = .next v → i = .pushSuppress

/-- PUSH.WOULDBLOCK and PUSH.HARD: the push is made once, LAST_SENT stays, a hard failure is logged, and the loop goes on (45
R210; R212, derived there from R209). The use of the scripted result and the advance of the counter are the model's (log 5). -/
def Obligations.FailedPushKeepsLastSent : Prop :=
  (∀ (s : State) (r : Report), pollAt .lPush s → s.rep = some r → r ≠ s.lastSent →
    exec .pushWouldBlock s =
      .next { s with
        events := s.events ++ [.push r .wouldBlock], seqPc := .lCsExit,
        pushIn := s.pushIn.tail, draws := s.draws + 1 }) ∧
  (∀ (s : State) (r : Report) (kind : HardKind), pollAt .lPush s → s.rep = some r → r ≠ s.lastSent →
    exec (.pushHard kind) s =
      .next { s with
        events := s.events ++ [.push r (.hard kind), .hardFailure kind], seqPc := .lCsExit,
        pushIn := s.pushIn.tail, draws := s.draws + 1 }) ∧
  Instr.pushWouldBlock.uop.code = 0b10001 ∧ ∀ kind, (Instr.pushHard kind).uop.code = 0b10001

/-- IRQ_ENTER takes the interrupt: it clears IRQ_PENDING, sets IN_IRQ and saves nothing (45 R215, decision D23; 60 R240);
IRQ_EXIT clears IN_IRQ and leaves the poll context as it was frozen (45 R216). -/
def Obligations.InterruptEntryAndReturn : Prop :=
  (∀ s : State, s.irqPending = true → s.mask = false → s.inIrq = false → s.booted = false →
    exec .irqEnter s = .next { s with irqPending := false, inIrq := true }) ∧
  (∀ s : State, inHandlerNow s → exec .irqExit s = .next { s with inIrq := false }) ∧
  Instr.irqEnter.uop.code = 0b11000 ∧ Instr.irqExit.uop.code = 0b11100

/-- GET_REPORT.INPUT answers the 8 bytes of BR_REPORT, whatever the id, and changes no register (44 R181, decision D13). -/
def Obligations.GetReportAnswersTheCommittedReport : Prop :=
  (∀ (s : State) (id : Byte), inHandlerNow s →
    exec (.getReportInput id) s =
      .next { s with replies := s.replies ++ [(.getReport .input id, .report (reportBytes s.brReport))] }) ∧
  (∀ r : Report, (reportBytes r).length = 8 ∧ reportOfBytes (reportBytes r) = r) ∧
  ∀ id, (Instr.getReportInput id).uop.code = 0b11001

/-- GET_REPORT.UNSUP answers *Unsupported report* for every type other than Input and changes nothing (44 R182). -/
def Obligations.GetReportOfOtherTypesIsRejected : Prop :=
  (∀ (s : State) (type : RType) (id : Byte), inHandlerNow s → type ≠ .input →
    exec (.getReportUnsup type id) s =
      .next { s with replies := s.replies ++ [(.getReport type id, .unsupportedReport type id none)] }) ∧
  (∀ (s t : State) (type : RType) (id : Byte), exec (.getReportUnsup type id) s = .next t → type ≠ .input) ∧
  ∀ type id, (Instr.getReportUnsup type id).uop.code = 0b11001

/-- SET_REPORT.LED writes the five indicators from bits 0 to 4 and forwards each in bit order; bits 7:5 have no effect (44 R183,
30 R102; the setters' order is decision D15). -/
def Obligations.SetReportWritesTheLeds : Prop :=
  (∀ (s : State) (b : Byte), inHandlerNow s →
    exec (.setReportLed b) s =
      .next { s with
        led := ⟨b.getLsbD 0, b.getLsbD 1, b.getLsbD 2, b.getLsbD 3, b.getLsbD 4⟩
        events := s.events ++
          [ .led .setNumLock (b.getLsbD 0), .led .setCapsLock (b.getLsbD 1), .led .setScrollLock (b.getLsbD 2),
            .led .setCompose (b.getLsbD 3), .led .setKana (b.getLsbD 4) ]
        replies := s.replies ++ [(.setReport .output 0 [b], .done)] }) ∧
  ∀ b, (Instr.setReportLed b).uop.code = 0b11010

/-- SET_REPORT.UNSUP answers *Unsupported report* for every combination but the accepted one, with no partial effect (44 R185,
decision D38; 60 R231). -/
def Obligations.OtherSetReportsAreRejected : Prop :=
  (∀ (s : State) (type : RType) (id : Byte) (payload : List Byte), inHandlerNow s →
    (type ≠ .output ∨ id ≠ 0 ∨ payload.length ≠ 1) →
    exec (.setReportUnsup type id payload) s =
      .next { s with
        replies := s.replies ++
          [(.setReport type id payload, .unsupportedReport type id (some payload.length))] }) ∧
  (∀ (s t : State) (type : RType) (id : Byte) (payload : List Byte),
    exec (.setReportUnsup type id payload) s = .next t →
    type ≠ .output ∨ id ≠ 0 ∨ payload.length ≠ 1) ∧
  ∀ type id payload, (Instr.setReportUnsup type id payload).uop.code = 0b11010

/-- GET_DESCRIPTOR answers DESC_BYTES at every state (44 R187). -/
def Obligations.GetDescriptorAnswersTheBytes : Prop :=
  (∀ s : State, inHandlerNow s →
    exec .getDescriptor s =
      .next { s with replies := s.replies ++ [(.getDescriptor, .descriptor s.cfg.val.descBytes)] }) ∧
  Instr.getDescriptor.uop.code = 0b11011

/-! ### Rules of the whole machine -/

/-- Which operations write which register: an operation that changes a register is one the register's rule names as its writer
(10_state R21 to R39). Neither an operation nor a step of any agent changes CFG, and so none changes a read-only memory
(20_memory R79, 10_state R41; that CFG stands in the state is the model's choice, log 1). -/
def Obligations.OnlyTheNamedOperationsWrite : Prop :=
  (∀ s t : State, step s = .next t → t.cfg = s.cfg) ∧
  ∀ (i : Instr) (s t : State), exec i s = .next t →
    t.cfg = s.cfg ∧
    (t.colCells ≠ s.colCells → i = .colAssert ∨ i = .colDeassert) ∧
    (t.rawCells ≠ s.rawCells → i = .rowSample ∨ i = .dbfPump) ∧
    (t.dbsCells ≠ s.dbsCells ∨ t.debCells ≠ s.debCells → i = .dbfPump) ∧
    (t.layer ≠ s.layer → i = .layerSel) ∧
    (t.modifier ≠ s.modifier → i = .encInit ∨ i = .encCellMod) ∧
    (t.slots ≠ s.slots → i = .encInit ∨ i = .encCellSent ∨ i = .encCellKey ∨ i = .encCellOvf) ∧
    (t.rep ≠ s.rep → i = .encDone) ∧
    (t.lastSent ≠ s.lastSent → i = .pushOk) ∧
    (t.brReport ≠ s.brReport → i = .commit) ∧
    (t.led ≠ s.led → ∃ b, i = .setReportLed b) ∧
    (t.mask ≠ s.mask → i = .csEnter ∨ i = .csExit) ∧
    (t.irqPending ≠ s.irqPending → i = .irqEnter) ∧
    (t.inIrq ≠ s.inIrq → i = .irqEnter ∨ i = .irqExit) ∧
    (t.tmrArmed ≠ s.tmrArmed ∨ t.tmrExpired ≠ s.tmrExpired → i = .tmrArmFirst ∨ i = .tmrArmPeriod) ∧
    (t.seqC ≠ s.seqC → i = .colNext ∨ i = .tmrWait) ∧
    (t.seqK ≠ s.seqK → i = .encInit ∨ i.uop = .encCell) ∧
    (t.seqBoot ≠ s.seqBoot → i = .tmrArmFirst) ∧
    (t.booted ≠ s.booted → i = .bootEnter)

/-- The interrupt context changes no register of the poll context, and the poll context never changes LED (10_state R44). -/
def Obligations.ContextsKeepToTheirRegisters : Prop :=
  (∀ (i : Instr) (s t : State), ofIrqContext i = true → exec i s = .next t → SamePollRegisters s t) ∧
  (∀ (i : Instr) (s t : State), ofIrqContext i = false → exec i s = .next t →
    t.led = s.led ∧ t.irqPending = s.irqPending ∧ t.inIrq = s.inIrq ∧ t.replies = s.replies)

/-- No operation but DBF_PUMP reads RAW: with another RAW every other operation ends the same way, in the same state but for
RAW; after the pump RAW is unwritten (70 R269, 41 R142). -/
def Obligations.OnlyThePumpReadsRaw : Prop :=
  (∀ (i : Instr) (s : State) (raw : RawOf s.cfg), i ≠ .dbfPump →
    mapNext (fun t => { t with raw := rawUnwritten t.cfg }) (exec i { s with raw := raw }) =
      mapNext (fun t => { t with raw := rawUnwritten t.cfg }) (exec i s)) ∧
  (∀ s t : State, exec .dbfPump s = .next t → t.raw = Vector.replicate t.cfg.val.ncols none)

/-- No operation reads LED (42 R153, 10_state R34). -/
def Obligations.NothingReadsTheLeds : Prop :=
  ∀ (i : Instr) (s : State) (led l0 : Leds),
    mapNext (fun t => { t with led := l0 }) (exec i { s with led := led }) =
      mapNext (fun t => { t with led := l0 }) (exec i s)

/-! ### Invariants -/

/-- The reset state of every configuration, under any scripted environment, meets the three invariants (its zero reports and
LEDs are the spec's decision D14). -/
def Obligations.ResetMeetsTheInvariants : Prop :=
  Inv State.reset ∧
  ∀ (w : WfCfg) (moves : List Move) (rows : List (Column w)) (pushes : List PushRes),
    Inv ((State.resetWith w).withEnv moves rows pushes) ∧
    ReportInv ((State.resetWith w).withEnv moves rows pushes) ∧
    PushInv ((State.resetWith w).withEnv moves rows pushes)

/-- Every step of every agent keeps the invariant: ranges of the sequencer, phases, MASK, the one asserted column, what RAW
holds, registers written before they are read, the slots' two shapes, the timer (10_state R21, R23, R31, R32, R35, R38, R47,
43 R172). -/
def Obligations.StepKeepsTheInvariant : Prop := ∀ s t : State, Inv s → step s = .next t → Inv t

/-- Under the invariant every step completes until control goes to the bootloader: no unwritten register is read, nothing is
out of range, everything issued decodes and runs (00_scope R13, 10_state R47, 20_memory R70). -/
def Obligations.InvariantStatesAlwaysStep : Prop := ∀ s : State, Inv s → s.booted = false → ∃ t, step s = .next t

/-- Every step keeps REP, BR_REPORT and LAST_SENT well shaped: byte 1 is 0x00 and the slots are keys from the left, or one
Sentinel six times (30 R104, 43 R172). -/
def Obligations.StepKeepsReportsWellShaped : Prop := ∀ s t : State, ReportInv s → step s = .next t → ReportInv t

/-- Every step keeps the pushes within one between each two arms of the timer, and within one after the last, which is the
cycle's own PUSH (70 R272). -/
def Obligations.StepKeepsOnePushPerPeriod : Prop := ∀ s t : State, Inv s → PushInv s → step s = .next t → PushInv t

/-- At most one column line is asserted, and only while its column is settled and sampled: in a state with the invariant, and
after every step from one (10_state R21, 70 R271). -/
def Obligations.AtMostOneColumnIsAsserted : Prop :=
  (∀ (s : State) (c : Nat), Inv s → s.col[c]? = some true → c = s.seqC ∧ s.seqPc ∈ assertedLabels) ∧
  ∀ (s t : State) (c : Nat), Inv s → step s = .next t → t.col[c]? = some true →
    c = t.seqC ∧ t.seqPc ∈ assertedLabels

/-! ### The pseudo-operations -/

/-- SCAN: from the start of a scan, 6*NCOLS + 1 steps of the poll context hand exactly the sampled matrix to the filter, once,
and end with every line released, RAW unwritten and the filter's answer in DEB (40 R126, R130, 41 R141). The moves are scripted
as the poll context's and the samples as the matrix (log 5). -/
def Obligations.ScanDeliversTheSampledMatrix : Prop :=
  ∀ (s : State) (m : MatrixOf s.cfg) (restMoves : List Move) (restRows : List (Column s.cfg)),
    pollAt .sAssert s → s.seqC = 0 → s.col = Vector.replicate s.cfg.val.ncols false →
    s.raw = Vector.replicate s.cfg.val.ncols none →
    s.moves = List.replicate (6 * s.cfg.val.ncols + 1) .poll ++ restMoves → s.rowsIn = m.toList ++ restRows →
    ∃ d, runSteps (6 * s.cfg.val.ncols + 1) s =
      .next { s with
        dbs := (dbfAnswer s.cfg.val s.dbs m).1, deb := some (dbfAnswer s.cfg.val s.dbs m).2,
        seqC := s.cfg.val.ncols, seqPc := if s.seqBoot = true then .bCheck else .lLayer,
        events := s.events ++ scanEvents s.cfg.val ++ [.dbfStep],
        moves := restMoves, rowsIn := restRows, draws := d }

/-- ENCODE: NCOLS*NROWS + 2 steps of the poll context build the report that the pure encoder gives for DEB and LAYER, and
change nothing but the encoder's registers (43 R169, derived there from R160 to R168). The moves are scripted as the poll
context's (log 5). -/
def Obligations.EncodeBuildsThePureReport : Prop :=
  ∀ (s : State) (m : MatrixOf s.cfg) (l : Layer) (rest : List Move),
    pollAt .lEncInit s → s.deb = some m → s.layer = some l →
    s.moves = List.replicate (cellCount s.cfg.val + 2) .poll ++ rest →
    ∃ d, runSteps (cellCount s.cfg.val + 2) s =
      .next { s with
        modifier := some (modifierByte s.cfg.val l m), slots := some (encodedSlots s.cfg.val l m),
        rep := some (encodedReport s.cfg.val l m), seqK := cellCount s.cfg.val, seqPc := .lCsEnter,
        moves := rest, draws := d }

/-- With at most six pressed normal keys and no pressed Sentinel, the encoded report is the OR of the pressed modifiers' masks
and the normal keys in scan order, left-packed, the remainder zero (43 R170 a, with the spec's side condition). The moves are
scripted as the poll context's (log 5). -/
def Obligations.SixKeysAreReportedLeftPacked : Prop :=
  ∀ (s : State) (m : MatrixOf s.cfg) (l : Layer) (rest : List Move),
    pollAt .lEncInit s → s.deb = some m → s.layer = some l →
    s.moves = List.replicate (cellCount s.cfg.val + 2) .poll ++ rest →
    (∀ k ∈ pressedKeys s.cfg.val l m, classOf s.cfg.val k ≠ .sentinel) →
    (normalKeys s.cfg.val l m).length ≤ 6 →
    ∃ (t : State) (r : Report), runSteps (cellCount s.cfg.val + 2) s = .next t ∧ t.rep = some r ∧
      reportBytes r =
        modifierByte s.cfg.val l m :: 0x00 ::
          (normalKeys s.cfg.val l m ++ List.replicate (6 - (normalKeys s.cfg.val l m).length) 0x00)

/-- With seven or more pressed normal keys and no pressed Sentinel but KC_ROLLOVER, all six slots of the encoded report are
KC_ROLLOVER and the modifier byte is still the OR of the pressed modifiers (43 R170 b, with the spec's side condition). The moves
are scripted as the poll context's (log 5). -/
def Obligations.SevenKeysReportRollover : Prop :=
  ∀ (s : State) (m : MatrixOf s.cfg) (l : Layer) (rest : List Move),
    pollAt .lEncInit s → s.deb = some m → s.layer = some l →
    s.moves = List.replicate (cellCount s.cfg.val + 2) .poll ++ rest →
    (∀ k ∈ pressedKeys s.cfg.val l m, classOf s.cfg.val k = .sentinel → k = s.cfg.val.kcRollover) →
    7 ≤ (normalKeys s.cfg.val l m).length →
    ∃ (t : State) (r : Report), runSteps (cellCount s.cfg.val + 2) s = .next t ∧ t.rep = some r ∧
      reportBytes r = modifierByte s.cfg.val l m :: 0x00 :: List.replicate 6 s.cfg.val.kcRollover

/-- TRANSFER and the re-arm: the report is committed whatever the push does, pushed at most once and only when it differs from
LAST_SENT, and the timer is re-armed after every outcome (45 R206 to R213; decisions D12, D18, D22, D32). R207's draw is
scripted, and so are the moves, all the poll context's (log 5). -/
def Obligations.TransferCommitsAndPushesOnce : Prop :=
  ∀ (s : State) (r : Report) (res : PushRes) (pushes : List PushRes) (rest : List Move),
    pollAt .lCsEnter s → s.seqBoot = false → s.rep = some r → s.pushIn = res :: pushes →
    s.moves = List.replicate 5 .poll ++ rest →
    ∃ d, runSteps 5 s =
      .next { s with
        mask := false, brReport := r,
        lastSent := if res = .ok then r else s.lastSent,
        tmrArmed := true, tmrExpired := false, seqPc := .lWait,
        pushIn := if r = s.lastSent then res :: pushes else pushes,
        events := s.events ++
          (if r = s.lastSent then []
           else
            match res with
            | .ok => [.push r .ok]
            | .wouldBlock => [.push r .wouldBlock]
            | .hard kind => [.push r (.hard kind), .hardFailure kind]) ++ [.tmrArm s.cfg.val.tPeriod],
        moves := rest, draws := d }

/-- Start-up from reset, for every configuration and every sample: after 6*NCOLS + 3 steps of the poll context the run has
ended at the bootloader when the filter's first matrix has BOOT_POS asserted, and else waits with the long first period armed
(45 R201 to R203, R218, 70 R264; the reset reports are decision D14). The moves are scripted as the poll context's and the samples
as the matrix (log 5). -/
def Obligations.StartupChecksTheBootKeyOnce : Prop :=
  ∀ (w : WfCfg) (m : MatrixOf w),
    ∃ t, runSteps (6 * w.val.ncols + 3)
        ((State.resetWith w).withEnv (List.replicate (6 * w.val.ncols + 3) .poll) m.toList []) = .next t ∧
      t.cfg = w ∧ t.brReport = 0 ∧ t.lastSent = 0 ∧ t.rep = none ∧ t.col = Vector.replicate t.cfg.val.ncols false ∧
      (if arrayAt (dbfAnswer w.val w.val.dbf.dbs0 m).2 w.val.bootPos = some true then
        t.booted = true ∧ t.seqPc = .bEnter ∧ t.tmrArmed = false ∧
        t.events = scanEvents w.val ++ [.dbfStep, .bootEnter]
      else
        t.booted = false ∧ t.seqPc = .lWait ∧ t.seqBoot = false ∧ t.tmrArmed = true ∧ t.tmrExpired = false ∧
        t.events = scanEvents w.val ++ [.dbfStep, .tmrArm w.val.tFirst])

/-- The scenario of the bootloader key, in a run in which only the poll context moves: with a filter whose first output is its
first input, a raw assertion of BOOT_POS in the first scan ends the run at the bootloader (45 R201, 41 R143 DBF_FIRST_PASS;
conflict C2, decision D11). The script of moves and samples is the model's (log 5). -/
def Obligations.HeldBootKeyEntersTheBootloader : Prop :=
  ∀ (w : WfCfg) (m : MatrixOf w), DbfFirstPass w.val → arrayAt m w.val.bootPos = some true →
    ∃ t, runSteps (6 * w.val.ncols + 3)
        ((State.resetWith w).withEnv (List.replicate (6 * w.val.ncols + 3) .poll) m.toList []) = .next t ∧
      t.booted = true ∧ t.events.countP isPush = 0 ∧ t.events.countP isArm = 0 ∧ step t = .fault .booted

/-- One poll cycle in which only the poll context moves issues the fixed expansion CYCLE, no more and no less, and comes back to
the wait (30 R110, 45 R200; the spec's decision D1). The script of the moves is the model's (log 5). -/
def Obligations.CycleIssuesTheFixedExpansion : Prop :=
  ∀ s : State, Inv s → pollAt .lWait s → s.tmrExpired = true → pollsNext (cycleOps s.cfg.val).length s →
    opsIssued (cycleOps s.cfg.val).length s = cycleOps s.cfg.val ∧
    ∃ t, runSteps (cycleOps s.cfg.val).length s = .next t ∧ t.seqPc = .lWait ∧ t.tmrExpired = false

/-- An interrupt raised anywhere in the critical section stays pending while MASK = 1 and is taken after CS_EXIT (60 R237, R238,
decision D16). While MASK = 1 no step takes or drops it. Raised at L_COMMIT, L_PUSH or L_CS_EXIT and proposed from then on, it is
served in the first step after CS_EXIT (that a proposed interrupt which is not enabled gives the poll context its turn is the
model's, log 6; the script of the moves, log 5). -/
def Obligations.MaskedInterruptIsServedAfterTheSection : Prop :=
  (∀ s t : State, Inv s → s.mask = true → s.irqPending = true → step s = .next t →
    t.irqPending = true ∧ t.inIrq = false) ∧
  ∀ (s : State) (rest : List Move), Inv s → s.seqPc ∈ criticalLabels →
    s.moves = .raiseIrq :: (List.replicate (stepsToUnmask s.seqPc) .irqEnter ++ .irqEnter :: rest) →
    ∃ t d, runSteps (stepsToUnmask s.seqPc + 1) s = .next t ∧
      t.irqPending = true ∧ t.inIrq = false ∧ t.mask = false ∧ t.seqPc = .lRearm ∧
      runSteps (stepsToUnmask s.seqPc + 2) s =
        .next { t with irqPending := false, inIrq := true, moves := rest, draws := d }

/-- Under ENV_IDEAL a step that samples stores the closed switches of its column in RAW (40 R129, R124; ENV_IDEAL is a premise the
spec names and no rule assumes). -/
def Obligations.IdealSamplesShowTheSwitches : Prop :=
  ∀ (closed : Nat → Nat → Bool) (s t : State) (r : Nat), EnvIdeal closed s → s.seqPc = .sSample → nextMove s = .poll →
    r < s.cfg.val.nrows → step s = .next t →
    ∃ column, t.rawCells[s.seqC]? = some (some column) ∧ column[r]? = some (closed s.seqC r)
end

