-- ==== Sys2Proof/Laws/Operands.lean ====
section
/-!
SUPPORT. What the operand functions can answer, said once: admitted configurations, shapes, cells, the ROM and register reads,
slots, reports.
-/

namespace Sys2Proof.Machine

/-! ### Admitted configurations (spec 00_scope R8) -/

theorem ncols_pos (w : WfCfg) : 0 < w.val.ncols := ((cfgWf_iff _).1 w.ok).1

theorem nrows_pos (w : WfCfg) : 0 < w.val.nrows := ((cfgWf_iff _).1 w.ok).2.1

/-- A modifier's mask has exactly one bit set (00_scope R8 d). -/
theorem mask_one_bit (w : WfCfg) {m : Byte} (h : m ∈ modifierMasks w.val) : m ∈ oneBitMasks :=
  ((cfgWf_iff _).1 w.ok).2.2.2.2.1 m h

/-- `class(0x00) = Empty` (00_scope R8 e). -/
theorem classOf_zero (w : WfCfg) : classOf w.val 0x00 = .empty := ((cfgWf_iff _).1 w.ok).2.2.2.2.2.2.1

/-- `class(KC_ROLLOVER) = Sentinel` (00_scope R8 f). -/
theorem classOf_rollover (w : WfCfg) : classOf w.val w.val.kcRollover = .sentinel :=
  ((cfgWf_iff _).1 w.ok).2.2.2.2.2.2.2.1

/-- A byte of class Normal or Sentinel is not 0x00 (00_scope R8 e). -/
theorem ne_zero_of_class (w : WfCfg) {k : Byte} (h : classOf w.val k ≠ .empty) : k ≠ 0x00 := fun e =>
  h (e ▸ classOf_zero w)

/-- The mask of a modifier byte is one of the configuration's modifier masks. -/
theorem mask_mem {c : Cfg} {k mask : Byte} (h : classOf c k = .modifier mask) : mask ∈ modifierMasks c := by
  simp only [modifierMasks, List.mem_filterMap]
  exact ⟨.modifier mask, by rw [← h, classOf, Vector.mem_toList_iff]; exact Vector.getElem_mem _, rfl⟩

theorem cellCount_pos (w : WfCfg) : 0 < cellCount w.val := Nat.mul_pos (ncols_pos w) (nrows_pos w)

/-! ### Cells -/

/-- A cell inside an array reads as its value. -/
theorem arrayAt_of_inside {α : Type} {nc nr : Nat} (m : Grid α nc nr) {p : Cell} (h : p.1 < nc ∧ p.2 < nr) :
    arrayAt m p = some (cellAt m p h) := dif_pos h

theorem arrayAt_eq_some {α : Type} {nc nr : Nat} (m : Grid α nc nr) (p : Cell) (a : α) :
    arrayAt m p = some a ↔ ∃ h, cellAt m p h = a := by
  unfold arrayAt; split <;> simp [*]

theorem cellOf_inside (w : WfCfg) {k : Nat} (h : k < cellCount w.val) :
    (cellOf w.val k).1 < w.val.ncols ∧ (cellOf w.val k).2 < w.val.nrows :=
  ⟨(Nat.div_lt_iff_lt_mul (nrows_pos w)).2 h, Nat.mod_lt _ (nrows_pos w)⟩

/-- `cellidx` and `cell` are inverse to each other (00_scope R11). -/
theorem cellIdx_cellOf (c : Cfg) (k : Nat) : cellIdx c (cellOf c k) = k := by
  simp only [cellIdx, cellOf]; rw [Nat.mul_comm]; exact Nat.div_add_mod k c.nrows

theorem cellOf_cellIdx {c : Cfg} {p : Cell} (h : p.2 < c.nrows) : cellOf c (cellIdx c p) = p := by
  have hp : 0 < c.nrows := by omega
  refine Prod.ext ?_ ?_
  · show (p.1 * c.nrows + p.2) / c.nrows = p.1
    rw [Nat.mul_comm, Nat.mul_add_div hp, Nat.div_eq_of_lt h, Nat.add_zero]
  · show (p.1 * c.nrows + p.2) % c.nrows = p.2
    rw [Nat.mul_comm, Nat.mul_add_mod, Nat.mod_eq_of_lt h]

/-- A cell number whose cell lies inside the matrix is below the number of cells. -/
theorem lt_cellCount {c : Cfg} {k : Nat} (h : (cellOf c k).1 < c.ncols ∧ (cellOf c k).2 < c.nrows) : k < cellCount c := by
  have hr : 0 < c.nrows := by have := h.2; omega
  exact (Nat.div_lt_iff_lt_mul hr).1 h.1

/-! ### RAW -/

@[simp] theorem wholeRaw_map_some {α : Type} {n : Nat} (m : Vector α n) : wholeRaw (m.map some) = some m := by
  simp [wholeRaw]

theorem wholeRaw_eq_some {α : Type} {n : Nat} (raw : Vector (Option α) n) (m : Vector α n) :
    wholeRaw raw = some m ↔ raw = m.map some := by
  constructor
  · intro h
    unfold wholeRaw at h
    split at h
    · cases h; ext c hc; simp
    · cases h
  · rintro rfl; exact wholeRaw_map_some m

theorem wholeRaw_eq_none {α : Type} {n : Nat} (raw : Vector (Option α) n) : wholeRaw raw = none ↔ none ∈ raw := by
  have h : wholeRaw raw = none ↔ ¬∀ c (hc : c < n), raw[c].isSome = true := by unfold wholeRaw; split <;> simp [*]
  rw [h, Vector.mem_iff_getElem]
  simp only [not_forall, Bool.not_eq_true, Option.isSome_eq_false_iff, Option.isNone_iff_eq_none]

/-! ### Register reads -/

theorem readDeb_eq_ok {w : WfCfg} (deb : Option (MatrixOf w)) (p : Cell) (h) (b : Bool) :
    readDeb deb p h = .ok b ↔ ∃ m, deb = some m ∧ cellAt m p h = b := by
  unfold readDeb; split <;> simp [*]

theorem readKey_eq_ok (w : WfCfg) (layer : Option Layer) (p : Cell) (h) (k : Byte) :
    readKey w layer p h = .ok k ↔ ∃ l, layer = some l ∧ cellAt (tableOf w.val l) p h = k := by
  unfold readKey; split <;> simp [*]

/-- A cell that arrayAt answers is what DEB reads there. -/
theorem readDeb_of_arrayAt {w : WfCfg} {deb : Option (MatrixOf w)} {m : MatrixOf w} {p : Cell} {b : Bool}
    (hm : deb = some m) (hb : arrayAt m p = some b) (h) : readDeb deb p h = .ok b := by
  rw [arrayAt_of_inside m h] at hb
  exact (readDeb_eq_ok _ _ _ _).2 ⟨m, hm, Option.some.inj hb⟩

theorem encForm_of_deb_unwritten {s : State} (h : s.deb = none) : encForm s = .error (.unwritten .deb) := by
  simp [encForm, encFormAt, h]

theorem encForm_of_layer_unwritten {s : State} {m : MatrixOf s.cfg} (h : s.deb = some m)
    (hd : arrayAt m (cellOf s.cfg.val s.seqK) = some true) (hl : s.layer = none) :
    encForm s = .error (.unwritten .layer) := by
  obtain ⟨hi, hc⟩ := (arrayAt_eq_some _ _ _).1 hd
  simp [encForm, encFormAt, readKey, h, hl, lt_cellCount hi, hc]

theorem encForm_of_open {s : State} {m : MatrixOf s.cfg} (h : s.deb = some m)
    (hd : arrayAt m (cellOf s.cfg.val s.seqK) = some false) : encForm s = .ok .skip := by
  obtain ⟨hi, hc⟩ := (arrayAt_eq_some _ _ _).1 hd
  simp [encForm, encFormAt, h, lt_cellCount hi, hc]

theorem encForm_of_key {s : State} {m : MatrixOf s.cfg} {l : Layer} {kc : Byte} (h : s.deb = some m)
    (hd : arrayAt m (cellOf s.cfg.val s.seqK) = some true) (hl : s.layer = some l)
    (hk : tableRead s.cfg.val l (cellOf s.cfg.val s.seqK) = some kc) :
    encForm s = encFormOfKey s.cfg.val s.slots kc := by
  obtain ⟨hi, hc⟩ := (arrayAt_eq_some _ _ _).1 hd
  obtain ⟨-, rfl⟩ := (arrayAt_eq_some _ _ _).1 hk
  simp [encForm, encFormAt, readKey, h, hl, lt_cellCount hi, hc]

/-- What a selected sub-form of ENC_CELL says of the state (43 R161). -/
theorem encForm_ok {s : State} {f : EncForm} (h : encForm s = .ok f) :
    ∃ m, s.deb = some m ∧
      ((arrayAt m (cellOf s.cfg.val s.seqK) = some false ∧ f = .skip) ∨
       (arrayAt m (cellOf s.cfg.val s.seqK) = some true ∧
        ∃ l kc, s.layer = some l ∧ tableRead s.cfg.val l (cellOf s.cfg.val s.seqK) = some kc ∧
          encFormOfKey s.cfg.val s.slots kc = .ok f)) := by
  unfold encForm encFormAt at h
  split at h
  · cases h
  · next m hm =>
    refine ⟨m, hm, ?_⟩
    split at h
    · next hi =>
      split at h
      · next hc =>
        split at h
        · cases h
        · next kc hk =>
          obtain ⟨l, hl, hk⟩ := (readKey_eq_ok _ _ _ _ _).1 hk
          exact .inr ⟨(arrayAt_eq_some _ _ _).2 ⟨_, hc⟩, l, kc, hl, (arrayAt_eq_some _ _ _).2 ⟨_, hk⟩, h⟩
      · next hc => exact .inl ⟨(arrayAt_eq_some _ _ _).2 ⟨_, by simpa using hc⟩, by simpa using h.symm⟩
    · cases h

/-- What the sub-form of an asserted cell says of its key code and of the slots (43 R161). -/
theorem encFormOfKey_ok {c : Cfg} {slots : Option Slots} {kc : Byte} {f : EncForm}
    (h : encFormOfKey c slots kc = .ok f) :
    match f with
    | .skip => False
    | .empty => classOf c kc = .empty
    | .modifier mask => classOf c kc = .modifier mask
    | .sentinel k => k = kc ∧ classOf c kc = .sentinel
    | .key k sl => k = kc ∧ classOf c kc = .normal ∧ slots = some sl ∧ slotsFull sl = false
    | .overflow => classOf c kc = .normal ∧ ∃ sl, slots = some sl ∧ slotsFull sl = true := by
  unfold encFormOfKey at h
  split at h
  · next hc => cases h; exact hc
  · next hc => cases h; exact hc
  · next hc => cases h; exact ⟨rfl, hc⟩
  · next hc =>
    split at h
    · cases h
    · split at h
      · next hf => cases h; exact ⟨hc, _, rfl, hf⟩
      · next hf => cases h; exact ⟨rfl, hc, rfl, by simpa using hf⟩

/-! ### Slots and reports -/

theorem firstEmpty_le (sl : Slots) : firstEmpty sl ≤ 6 := by
  have := List.findIdx_le_length (xs := sl.toList) (p := fun b => b == 0x00)
  simpa [firstEmpty] using this

/-- FULL means that no slot is empty (10_state R40). -/
theorem slotsFull_iff (sl : Slots) : slotsFull sl = true ↔ ∀ i (h : i < 6), sl[i] ≠ 0x00 := by
  have hl : sl.toList.length = 6 := by simp
  have hf : slotsFull sl = true ↔ firstEmpty sl = sl.toList.length := by simp [slotsFull]
  rw [hf, firstEmpty, List.findIdx_eq_length]
  constructor
  · intro h i hi
    simpa using h sl[i] (by simp [Vector.mem_toList_iff])
  · intro h x hx
    obtain ⟨i, hi, rfl⟩ := List.mem_iff_getElem.1 hx
    simpa using h i (by simpa using hi)

@[simp] theorem filled_getElem (b : Byte) (i : Nat) (h : i < 6) : (filled b)[i] = b := by simp [filled]

/-- A report of eight bytes has those bytes (20_memory R67). -/
theorem reportBytes_ofBytes (a b c d e f g h : Byte) :
    reportBytes (reportOfBytes [a, b, c, d, e, f, g, h]) = [a, b, c, d, e, f, g, h] := by
  simp only [reportBytes, reportByte, reportOfBytes, List.foldr, List.range, List.range.loop, List.map,
    List.cons.injEq, and_true]
  refine ⟨?_, ?_, ?_, ?_, ?_, ?_, ?_, ?_⟩
  all_goals
    apply BitVec.eq_of_getLsbD_eq
    intro i hi
    interval_cases i <;> simp

/-- The report's bytes are the modifier byte, 0x00 and the six slots (30 R101). -/
theorem reportBytes_assemble (m : Byte) (sl : Slots) :
    reportBytes (assembleReport m sl) = [m, 0x00, sl[0], sl[1], sl[2], sl[3], sl[4], sl[5]] :=
  reportBytes_ofBytes _ _ _ _ _ _ _ _

end Sys2Proof.Machine
end

