-- ==== Sys2Proof/Laws/State.lean ====
section
/-!
SUPPORT. The small lemmas of the named updates of State: one per field per update.
-/

namespace Sys2Proof.Machine

@[simp] theorem goto_cfg (s : State) (l : Label) : (s.goto l).cfg = s.cfg := rfl
@[simp] theorem goto_col (s : State) (l : Label) : (s.goto l).col = s.col := rfl
@[simp] theorem goto_raw (s : State) (l : Label) : (s.goto l).raw = s.raw := rfl
@[simp] theorem goto_dbs (s : State) (l : Label) : (s.goto l).dbs = s.dbs := rfl
@[simp] theorem goto_deb (s : State) (l : Label) : (s.goto l).deb = s.deb := rfl
@[simp] theorem goto_layer (s : State) (l : Label) : (s.goto l).layer = s.layer := rfl
@[simp] theorem goto_modifier (s : State) (l : Label) : (s.goto l).modifier = s.modifier := rfl
@[simp] theorem goto_slots (s : State) (l : Label) : (s.goto l).slots = s.slots := rfl
@[simp] theorem goto_rep (s : State) (l : Label) : (s.goto l).rep = s.rep := rfl
@[simp] theorem goto_lastSent (s : State) (l : Label) : (s.goto l).lastSent = s.lastSent := rfl
@[simp] theorem goto_seqPc (s : State) (l : Label) : (s.goto l).seqPc = l := rfl
@[simp] theorem goto_seqC (s : State) (l : Label) : (s.goto l).seqC = s.seqC := rfl
@[simp] theorem goto_seqK (s : State) (l : Label) : (s.goto l).seqK = s.seqK := rfl
@[simp] theorem goto_seqBoot (s : State) (l : Label) : (s.goto l).seqBoot = s.seqBoot := rfl
@[simp] theorem goto_brReport (s : State) (l : Label) : (s.goto l).brReport = s.brReport := rfl
@[simp] theorem goto_led (s : State) (l : Label) : (s.goto l).led = s.led := rfl
@[simp] theorem goto_mask (s : State) (l : Label) : (s.goto l).mask = s.mask := rfl
@[simp] theorem goto_irqPending (s : State) (l : Label) : (s.goto l).irqPending = s.irqPending := rfl
@[simp] theorem goto_inIrq (s : State) (l : Label) : (s.goto l).inIrq = s.inIrq := rfl
@[simp] theorem goto_tmrArmed (s : State) (l : Label) : (s.goto l).tmrArmed = s.tmrArmed := rfl
@[simp] theorem goto_tmrExpired (s : State) (l : Label) : (s.goto l).tmrExpired = s.tmrExpired := rfl
@[simp] theorem goto_booted (s : State) (l : Label) : (s.goto l).booted = s.booted := rfl
@[simp] theorem goto_moves (s : State) (l : Label) : (s.goto l).moves = s.moves := rfl
@[simp] theorem goto_rowsIn (s : State) (l : Label) : (s.goto l).rowsIn = s.rowsIn := rfl
@[simp] theorem goto_pushIn (s : State) (l : Label) : (s.goto l).pushIn = s.pushIn := rfl
@[simp] theorem goto_draws (s : State) (l : Label) : (s.goto l).draws = s.draws := rfl
@[simp] theorem goto_events (s : State) (l : Label) : (s.goto l).events = s.events := rfl
@[simp] theorem goto_replies (s : State) (l : Label) : (s.goto l).replies = s.replies := rfl

@[simp] theorem emit_cfg (s : State) (es : List Event) : (s.emit es).cfg = s.cfg := rfl
@[simp] theorem emit_col (s : State) (es : List Event) : (s.emit es).col = s.col := rfl
@[simp] theorem emit_raw (s : State) (es : List Event) : (s.emit es).raw = s.raw := rfl
@[simp] theorem emit_dbs (s : State) (es : List Event) : (s.emit es).dbs = s.dbs := rfl
@[simp] theorem emit_deb (s : State) (es : List Event) : (s.emit es).deb = s.deb := rfl
@[simp] theorem emit_layer (s : State) (es : List Event) : (s.emit es).layer = s.layer := rfl
@[simp] theorem emit_modifier (s : State) (es : List Event) : (s.emit es).modifier = s.modifier := rfl
@[simp] theorem emit_slots (s : State) (es : List Event) : (s.emit es).slots = s.slots := rfl
@[simp] theorem emit_rep (s : State) (es : List Event) : (s.emit es).rep = s.rep := rfl
@[simp] theorem emit_lastSent (s : State) (es : List Event) : (s.emit es).lastSent = s.lastSent := rfl
@[simp] theorem emit_seqPc (s : State) (es : List Event) : (s.emit es).seqPc = s.seqPc := rfl
@[simp] theorem emit_seqC (s : State) (es : List Event) : (s.emit es).seqC = s.seqC := rfl
@[simp] theorem emit_seqK (s : State) (es : List Event) : (s.emit es).seqK = s.seqK := rfl
@[simp] theorem emit_seqBoot (s : State) (es : List Event) : (s.emit es).seqBoot = s.seqBoot := rfl
@[simp] theorem emit_brReport (s : State) (es : List Event) : (s.emit es).brReport = s.brReport := rfl
@[simp] theorem emit_led (s : State) (es : List Event) : (s.emit es).led = s.led := rfl
@[simp] theorem emit_mask (s : State) (es : List Event) : (s.emit es).mask = s.mask := rfl
@[simp] theorem emit_irqPending (s : State) (es : List Event) : (s.emit es).irqPending = s.irqPending := rfl
@[simp] theorem emit_inIrq (s : State) (es : List Event) : (s.emit es).inIrq = s.inIrq := rfl
@[simp] theorem emit_tmrArmed (s : State) (es : List Event) : (s.emit es).tmrArmed = s.tmrArmed := rfl
@[simp] theorem emit_tmrExpired (s : State) (es : List Event) : (s.emit es).tmrExpired = s.tmrExpired := rfl
@[simp] theorem emit_booted (s : State) (es : List Event) : (s.emit es).booted = s.booted := rfl
@[simp] theorem emit_moves (s : State) (es : List Event) : (s.emit es).moves = s.moves := rfl
@[simp] theorem emit_rowsIn (s : State) (es : List Event) : (s.emit es).rowsIn = s.rowsIn := rfl
@[simp] theorem emit_pushIn (s : State) (es : List Event) : (s.emit es).pushIn = s.pushIn := rfl
@[simp] theorem emit_draws (s : State) (es : List Event) : (s.emit es).draws = s.draws := rfl
@[simp] theorem emit_events (s : State) (es : List Event) : (s.emit es).events = s.events ++ es := rfl
@[simp] theorem emit_replies (s : State) (es : List Event) : (s.emit es).replies = s.replies := rfl

@[simp] theorem answer_cfg (s : State) (r : Request) (a : Reply) : (s.answer r a).cfg = s.cfg := rfl
@[simp] theorem answer_col (s : State) (r : Request) (a : Reply) : (s.answer r a).col = s.col := rfl
@[simp] theorem answer_raw (s : State) (r : Request) (a : Reply) : (s.answer r a).raw = s.raw := rfl
@[simp] theorem answer_dbs (s : State) (r : Request) (a : Reply) : (s.answer r a).dbs = s.dbs := rfl
@[simp] theorem answer_deb (s : State) (r : Request) (a : Reply) : (s.answer r a).deb = s.deb := rfl
@[simp] theorem answer_layer (s : State) (r : Request) (a : Reply) : (s.answer r a).layer = s.layer := rfl
@[simp] theorem answer_modifier (s : State) (r : Request) (a : Reply) : (s.answer r a).modifier = s.modifier := rfl
@[simp] theorem answer_slots (s : State) (r : Request) (a : Reply) : (s.answer r a).slots = s.slots := rfl
@[simp] theorem answer_rep (s : State) (r : Request) (a : Reply) : (s.answer r a).rep = s.rep := rfl
@[simp] theorem answer_lastSent (s : State) (r : Request) (a : Reply) : (s.answer r a).lastSent = s.lastSent := rfl
@[simp] theorem answer_seqPc (s : State) (r : Request) (a : Reply) : (s.answer r a).seqPc = s.seqPc := rfl
@[simp] theorem answer_seqC (s : State) (r : Request) (a : Reply) : (s.answer r a).seqC = s.seqC := rfl
@[simp] theorem answer_seqK (s : State) (r : Request) (a : Reply) : (s.answer r a).seqK = s.seqK := rfl
@[simp] theorem answer_seqBoot (s : State) (r : Request) (a : Reply) : (s.answer r a).seqBoot = s.seqBoot := rfl
@[simp] theorem answer_brReport (s : State) (r : Request) (a : Reply) : (s.answer r a).brReport = s.brReport := rfl
@[simp] theorem answer_led (s : State) (r : Request) (a : Reply) : (s.answer r a).led = s.led := rfl
@[simp] theorem answer_mask (s : State) (r : Request) (a : Reply) : (s.answer r a).mask = s.mask := rfl
@[simp] theorem answer_irqPending (s : State) (r : Request) (a : Reply) : (s.answer r a).irqPending = s.irqPending := rfl
@[simp] theorem answer_inIrq (s : State) (r : Request) (a : Reply) : (s.answer r a).inIrq = s.inIrq := rfl
@[simp] theorem answer_tmrArmed (s : State) (r : Request) (a : Reply) : (s.answer r a).tmrArmed = s.tmrArmed := rfl
@[simp] theorem answer_tmrExpired (s : State) (r : Request) (a : Reply) : (s.answer r a).tmrExpired = s.tmrExpired := rfl
@[simp] theorem answer_booted (s : State) (r : Request) (a : Reply) : (s.answer r a).booted = s.booted := rfl
@[simp] theorem answer_moves (s : State) (r : Request) (a : Reply) : (s.answer r a).moves = s.moves := rfl
@[simp] theorem answer_rowsIn (s : State) (r : Request) (a : Reply) : (s.answer r a).rowsIn = s.rowsIn := rfl
@[simp] theorem answer_pushIn (s : State) (r : Request) (a : Reply) : (s.answer r a).pushIn = s.pushIn := rfl
@[simp] theorem answer_draws (s : State) (r : Request) (a : Reply) : (s.answer r a).draws = s.draws := rfl
@[simp] theorem answer_events (s : State) (r : Request) (a : Reply) : (s.answer r a).events = s.events := rfl
@[simp] theorem answer_replies (s : State) (r : Request) (a : Reply) : (s.answer r a).replies = s.replies ++ [(r, a)] := rfl

@[simp] theorem useRows_cfg (s : State) : (s.useRows).cfg = s.cfg := rfl
@[simp] theorem useRows_col (s : State) : (s.useRows).col = s.col := rfl
@[simp] theorem useRows_raw (s : State) : (s.useRows).raw = s.raw := rfl
@[simp] theorem useRows_dbs (s : State) : (s.useRows).dbs = s.dbs := rfl
@[simp] theorem useRows_deb (s : State) : (s.useRows).deb = s.deb := rfl
@[simp] theorem useRows_layer (s : State) : (s.useRows).layer = s.layer := rfl
@[simp] theorem useRows_modifier (s : State) : (s.useRows).modifier = s.modifier := rfl
@[simp] theorem useRows_slots (s : State) : (s.useRows).slots = s.slots := rfl
@[simp] theorem useRows_rep (s : State) : (s.useRows).rep = s.rep := rfl
@[simp] theorem useRows_lastSent (s : State) : (s.useRows).lastSent = s.lastSent := rfl
@[simp] theorem useRows_seqPc (s : State) : (s.useRows).seqPc = s.seqPc := rfl
@[simp] theorem useRows_seqC (s : State) : (s.useRows).seqC = s.seqC := rfl
@[simp] theorem useRows_seqK (s : State) : (s.useRows).seqK = s.seqK := rfl
@[simp] theorem useRows_seqBoot (s : State) : (s.useRows).seqBoot = s.seqBoot := rfl
@[simp] theorem useRows_brReport (s : State) : (s.useRows).brReport = s.brReport := rfl
@[simp] theorem useRows_led (s : State) : (s.useRows).led = s.led := rfl
@[simp] theorem useRows_mask (s : State) : (s.useRows).mask = s.mask := rfl
@[simp] theorem useRows_irqPending (s : State) : (s.useRows).irqPending = s.irqPending := rfl
@[simp] theorem useRows_inIrq (s : State) : (s.useRows).inIrq = s.inIrq := rfl
@[simp] theorem useRows_tmrArmed (s : State) : (s.useRows).tmrArmed = s.tmrArmed := rfl
@[simp] theorem useRows_tmrExpired (s : State) : (s.useRows).tmrExpired = s.tmrExpired := rfl
@[simp] theorem useRows_booted (s : State) : (s.useRows).booted = s.booted := rfl
@[simp] theorem useRows_moves (s : State) : (s.useRows).moves = s.moves := rfl
@[simp] theorem useRows_rowsIn (s : State) : (s.useRows).rowsIn = s.rowsIn.tail := rfl
@[simp] theorem useRows_pushIn (s : State) : (s.useRows).pushIn = s.pushIn := rfl
@[simp] theorem useRows_draws (s : State) : (s.useRows).draws = s.draws + 1 := rfl
@[simp] theorem useRows_events (s : State) : (s.useRows).events = s.events := rfl
@[simp] theorem useRows_replies (s : State) : (s.useRows).replies = s.replies := rfl

@[simp] theorem usePush_cfg (s : State) : (s.usePush).cfg = s.cfg := rfl
@[simp] theorem usePush_col (s : State) : (s.usePush).col = s.col := rfl
@[simp] theorem usePush_raw (s : State) : (s.usePush).raw = s.raw := rfl
@[simp] theorem usePush_dbs (s : State) : (s.usePush).dbs = s.dbs := rfl
@[simp] theorem usePush_deb (s : State) : (s.usePush).deb = s.deb := rfl
@[simp] theorem usePush_layer (s : State) : (s.usePush).layer = s.layer := rfl
@[simp] theorem usePush_modifier (s : State) : (s.usePush).modifier = s.modifier := rfl
@[simp] theorem usePush_slots (s : State) : (s.usePush).slots = s.slots := rfl
@[simp] theorem usePush_rep (s : State) : (s.usePush).rep = s.rep := rfl
@[simp] theorem usePush_lastSent (s : State) : (s.usePush).lastSent = s.lastSent := rfl
@[simp] theorem usePush_seqPc (s : State) : (s.usePush).seqPc = s.seqPc := rfl
@[simp] theorem usePush_seqC (s : State) : (s.usePush).seqC = s.seqC := rfl
@[simp] theorem usePush_seqK (s : State) : (s.usePush).seqK = s.seqK := rfl
@[simp] theorem usePush_seqBoot (s : State) : (s.usePush).seqBoot = s.seqBoot := rfl
@[simp] theorem usePush_brReport (s : State) : (s.usePush).brReport = s.brReport := rfl
@[simp] theorem usePush_led (s : State) : (s.usePush).led = s.led := rfl
@[simp] theorem usePush_mask (s : State) : (s.usePush).mask = s.mask := rfl
@[simp] theorem usePush_irqPending (s : State) : (s.usePush).irqPending = s.irqPending := rfl
@[simp] theorem usePush_inIrq (s : State) : (s.usePush).inIrq = s.inIrq := rfl
@[simp] theorem usePush_tmrArmed (s : State) : (s.usePush).tmrArmed = s.tmrArmed := rfl
@[simp] theorem usePush_tmrExpired (s : State) : (s.usePush).tmrExpired = s.tmrExpired := rfl
@[simp] theorem usePush_booted (s : State) : (s.usePush).booted = s.booted := rfl
@[simp] theorem usePush_moves (s : State) : (s.usePush).moves = s.moves := rfl
@[simp] theorem usePush_rowsIn (s : State) : (s.usePush).rowsIn = s.rowsIn := rfl
@[simp] theorem usePush_pushIn (s : State) : (s.usePush).pushIn = s.pushIn.tail := rfl
@[simp] theorem usePush_draws (s : State) : (s.usePush).draws = s.draws + 1 := rfl
@[simp] theorem usePush_events (s : State) : (s.usePush).events = s.events := rfl
@[simp] theorem usePush_replies (s : State) : (s.usePush).replies = s.replies := rfl

@[simp] theorem useMove_cfg (s : State) : (s.useMove).cfg = s.cfg := rfl
@[simp] theorem useMove_col (s : State) : (s.useMove).col = s.col := rfl
@[simp] theorem useMove_raw (s : State) : (s.useMove).raw = s.raw := rfl
@[simp] theorem useMove_dbs (s : State) : (s.useMove).dbs = s.dbs := rfl
@[simp] theorem useMove_deb (s : State) : (s.useMove).deb = s.deb := rfl
@[simp] theorem useMove_layer (s : State) : (s.useMove).layer = s.layer := rfl
@[simp] theorem useMove_modifier (s : State) : (s.useMove).modifier = s.modifier := rfl
@[simp] theorem useMove_slots (s : State) : (s.useMove).slots = s.slots := rfl
@[simp] theorem useMove_rep (s : State) : (s.useMove).rep = s.rep := rfl
@[simp] theorem useMove_lastSent (s : State) : (s.useMove).lastSent = s.lastSent := rfl
@[simp] theorem useMove_seqPc (s : State) : (s.useMove).seqPc = s.seqPc := rfl
@[simp] theorem useMove_seqC (s : State) : (s.useMove).seqC = s.seqC := rfl
@[simp] theorem useMove_seqK (s : State) : (s.useMove).seqK = s.seqK := rfl
@[simp] theorem useMove_seqBoot (s : State) : (s.useMove).seqBoot = s.seqBoot := rfl
@[simp] theorem useMove_brReport (s : State) : (s.useMove).brReport = s.brReport := rfl
@[simp] theorem useMove_led (s : State) : (s.useMove).led = s.led := rfl
@[simp] theorem useMove_mask (s : State) : (s.useMove).mask = s.mask := rfl
@[simp] theorem useMove_irqPending (s : State) : (s.useMove).irqPending = s.irqPending := rfl
@[simp] theorem useMove_inIrq (s : State) : (s.useMove).inIrq = s.inIrq := rfl
@[simp] theorem useMove_tmrArmed (s : State) : (s.useMove).tmrArmed = s.tmrArmed := rfl
@[simp] theorem useMove_tmrExpired (s : State) : (s.useMove).tmrExpired = s.tmrExpired := rfl
@[simp] theorem useMove_booted (s : State) : (s.useMove).booted = s.booted := rfl
@[simp] theorem useMove_moves (s : State) : (s.useMove).moves = s.moves.tail := rfl
@[simp] theorem useMove_rowsIn (s : State) : (s.useMove).rowsIn = s.rowsIn := rfl
@[simp] theorem useMove_pushIn (s : State) : (s.useMove).pushIn = s.pushIn := rfl
@[simp] theorem useMove_draws (s : State) : (s.useMove).draws = s.draws + 1 := rfl
@[simp] theorem useMove_events (s : State) : (s.useMove).events = s.events := rfl
@[simp] theorem useMove_replies (s : State) : (s.useMove).replies = s.replies := rfl

@[simp] theorem advanceCell_cfg (s : State) : (s.advanceCell).cfg = s.cfg := rfl
@[simp] theorem advanceCell_col (s : State) : (s.advanceCell).col = s.col := rfl
@[simp] theorem advanceCell_raw (s : State) : (s.advanceCell).raw = s.raw := rfl
@[simp] theorem advanceCell_dbs (s : State) : (s.advanceCell).dbs = s.dbs := rfl
@[simp] theorem advanceCell_deb (s : State) : (s.advanceCell).deb = s.deb := rfl
@[simp] theorem advanceCell_layer (s : State) : (s.advanceCell).layer = s.layer := rfl
@[simp] theorem advanceCell_modifier (s : State) : (s.advanceCell).modifier = s.modifier := rfl
@[simp] theorem advanceCell_slots (s : State) : (s.advanceCell).slots = s.slots := rfl
@[simp] theorem advanceCell_rep (s : State) : (s.advanceCell).rep = s.rep := rfl
@[simp] theorem advanceCell_lastSent (s : State) : (s.advanceCell).lastSent = s.lastSent := rfl
@[simp] theorem advanceCell_seqPc (s : State) : (s.advanceCell).seqPc = if s.seqK + 1 < cellCount s.cfg.val then .lEncCell else .lEncDone := rfl
@[simp] theorem advanceCell_seqC (s : State) : (s.advanceCell).seqC = s.seqC := rfl
@[simp] theorem advanceCell_seqK (s : State) : (s.advanceCell).seqK = s.seqK + 1 := rfl
@[simp] theorem advanceCell_seqBoot (s : State) : (s.advanceCell).seqBoot = s.seqBoot := rfl
@[simp] theorem advanceCell_brReport (s : State) : (s.advanceCell).brReport = s.brReport := rfl
@[simp] theorem advanceCell_led (s : State) : (s.advanceCell).led = s.led := rfl
@[simp] theorem advanceCell_mask (s : State) : (s.advanceCell).mask = s.mask := rfl
@[simp] theorem advanceCell_irqPending (s : State) : (s.advanceCell).irqPending = s.irqPending := rfl
@[simp] theorem advanceCell_inIrq (s : State) : (s.advanceCell).inIrq = s.inIrq := rfl
@[simp] theorem advanceCell_tmrArmed (s : State) : (s.advanceCell).tmrArmed = s.tmrArmed := rfl
@[simp] theorem advanceCell_tmrExpired (s : State) : (s.advanceCell).tmrExpired = s.tmrExpired := rfl
@[simp] theorem advanceCell_booted (s : State) : (s.advanceCell).booted = s.booted := rfl
@[simp] theorem advanceCell_moves (s : State) : (s.advanceCell).moves = s.moves := rfl
@[simp] theorem advanceCell_rowsIn (s : State) : (s.advanceCell).rowsIn = s.rowsIn := rfl
@[simp] theorem advanceCell_pushIn (s : State) : (s.advanceCell).pushIn = s.pushIn := rfl
@[simp] theorem advanceCell_draws (s : State) : (s.advanceCell).draws = s.draws := rfl
@[simp] theorem advanceCell_events (s : State) : (s.advanceCell).events = s.events := rfl
@[simp] theorem advanceCell_replies (s : State) : (s.advanceCell).replies = s.replies := rfl

@[simp] theorem armTimer_cfg (s : State) (p : Nat) : (s.armTimer p).cfg = s.cfg := rfl
@[simp] theorem armTimer_col (s : State) (p : Nat) : (s.armTimer p).col = s.col := rfl
@[simp] theorem armTimer_raw (s : State) (p : Nat) : (s.armTimer p).raw = s.raw := rfl
@[simp] theorem armTimer_dbs (s : State) (p : Nat) : (s.armTimer p).dbs = s.dbs := rfl
@[simp] theorem armTimer_deb (s : State) (p : Nat) : (s.armTimer p).deb = s.deb := rfl
@[simp] theorem armTimer_layer (s : State) (p : Nat) : (s.armTimer p).layer = s.layer := rfl
@[simp] theorem armTimer_modifier (s : State) (p : Nat) : (s.armTimer p).modifier = s.modifier := rfl
@[simp] theorem armTimer_slots (s : State) (p : Nat) : (s.armTimer p).slots = s.slots := rfl
@[simp] theorem armTimer_rep (s : State) (p : Nat) : (s.armTimer p).rep = s.rep := rfl
@[simp] theorem armTimer_lastSent (s : State) (p : Nat) : (s.armTimer p).lastSent = s.lastSent := rfl
@[simp] theorem armTimer_seqPc (s : State) (p : Nat) : (s.armTimer p).seqPc = s.seqPc := rfl
@[simp] theorem armTimer_seqC (s : State) (p : Nat) : (s.armTimer p).seqC = s.seqC := rfl
@[simp] theorem armTimer_seqK (s : State) (p : Nat) : (s.armTimer p).seqK = s.seqK := rfl
@[simp] theorem armTimer_seqBoot (s : State) (p : Nat) : (s.armTimer p).seqBoot = s.seqBoot := rfl
@[simp] theorem armTimer_brReport (s : State) (p : Nat) : (s.armTimer p).brReport = s.brReport := rfl
@[simp] theorem armTimer_led (s : State) (p : Nat) : (s.armTimer p).led = s.led := rfl
@[simp] theorem armTimer_mask (s : State) (p : Nat) : (s.armTimer p).mask = s.mask := rfl
@[simp] theorem armTimer_irqPending (s : State) (p : Nat) : (s.armTimer p).irqPending = s.irqPending := rfl
@[simp] theorem armTimer_inIrq (s : State) (p : Nat) : (s.armTimer p).inIrq = s.inIrq := rfl
@[simp] theorem armTimer_tmrArmed (s : State) (p : Nat) : (s.armTimer p).tmrArmed = true := rfl
@[simp] theorem armTimer_tmrExpired (s : State) (p : Nat) : (s.armTimer p).tmrExpired = false := rfl
@[simp] theorem armTimer_booted (s : State) (p : Nat) : (s.armTimer p).booted = s.booted := rfl
@[simp] theorem armTimer_moves (s : State) (p : Nat) : (s.armTimer p).moves = s.moves := rfl
@[simp] theorem armTimer_rowsIn (s : State) (p : Nat) : (s.armTimer p).rowsIn = s.rowsIn := rfl
@[simp] theorem armTimer_pushIn (s : State) (p : Nat) : (s.armTimer p).pushIn = s.pushIn := rfl
@[simp] theorem armTimer_draws (s : State) (p : Nat) : (s.armTimer p).draws = s.draws := rfl
@[simp] theorem armTimer_events (s : State) (p : Nat) : (s.armTimer p).events = s.events ++ [.tmrArm p] := rfl
@[simp] theorem armTimer_replies (s : State) (p : Nat) : (s.armTimer p).replies = s.replies := rfl

@[simp] theorem pushCall_cfg (s : State) (r : Report) (res : PushRes) : (s.pushCall r res).cfg = s.cfg := rfl
@[simp] theorem pushCall_col (s : State) (r : Report) (res : PushRes) : (s.pushCall r res).col = s.col := rfl
@[simp] theorem pushCall_raw (s : State) (r : Report) (res : PushRes) : (s.pushCall r res).raw = s.raw := rfl
@[simp] theorem pushCall_dbs (s : State) (r : Report) (res : PushRes) : (s.pushCall r res).dbs = s.dbs := rfl
@[simp] theorem pushCall_deb (s : State) (r : Report) (res : PushRes) : (s.pushCall r res).deb = s.deb := rfl
@[simp] theorem pushCall_layer (s : State) (r : Report) (res : PushRes) : (s.pushCall r res).layer = s.layer := rfl
@[simp] theorem pushCall_modifier (s : State) (r : Report) (res : PushRes) : (s.pushCall r res).modifier = s.modifier := rfl
@[simp] theorem pushCall_slots (s : State) (r : Report) (res : PushRes) : (s.pushCall r res).slots = s.slots := rfl
@[simp] theorem pushCall_rep (s : State) (r : Report) (res : PushRes) : (s.pushCall r res).rep = s.rep := rfl
@[simp] theorem pushCall_lastSent (s : State) (r : Report) (res : PushRes) : (s.pushCall r res).lastSent = s.lastSent := rfl
@[simp] theorem pushCall_seqPc (s : State) (r : Report) (res : PushRes) : (s.pushCall r res).seqPc = s.seqPc := rfl
@[simp] theorem pushCall_seqC (s : State) (r : Report) (res : PushRes) : (s.pushCall r res).seqC = s.seqC := rfl
@[simp] theorem pushCall_seqK (s : State) (r : Report) (res : PushRes) : (s.pushCall r res).seqK = s.seqK := rfl
@[simp] theorem pushCall_seqBoot (s : State) (r : Report) (res : PushRes) : (s.pushCall r res).seqBoot = s.seqBoot := rfl
@[simp] theorem pushCall_brReport (s : State) (r : Report) (res : PushRes) : (s.pushCall r res).brReport = s.brReport := rfl
@[simp] theorem pushCall_led (s : State) (r : Report) (res : PushRes) : (s.pushCall r res).led = s.led := rfl
@[simp] theorem pushCall_mask (s : State) (r : Report) (res : PushRes) : (s.pushCall r res).mask = s.mask := rfl
@[simp] theorem pushCall_irqPending (s : State) (r : Report) (res : PushRes) : (s.pushCall r res).irqPending = s.irqPending := rfl
@[simp] theorem pushCall_inIrq (s : State) (r : Report) (res : PushRes) : (s.pushCall r res).inIrq = s.inIrq := rfl
@[simp] theorem pushCall_tmrArmed (s : State) (r : Report) (res : PushRes) : (s.pushCall r res).tmrArmed = s.tmrArmed := rfl
@[simp] theorem pushCall_tmrExpired (s : State) (r : Report) (res : PushRes) : (s.pushCall r res).tmrExpired = s.tmrExpired := rfl
@[simp] theorem pushCall_booted (s : State) (r : Report) (res : PushRes) : (s.pushCall r res).booted = s.booted := rfl
@[simp] theorem pushCall_moves (s : State) (r : Report) (res : PushRes) : (s.pushCall r res).moves = s.moves := rfl
@[simp] theorem pushCall_rowsIn (s : State) (r : Report) (res : PushRes) : (s.pushCall r res).rowsIn = s.rowsIn := rfl
@[simp] theorem pushCall_pushIn (s : State) (r : Report) (res : PushRes) : (s.pushCall r res).pushIn = s.pushIn.tail := rfl
@[simp] theorem pushCall_draws (s : State) (r : Report) (res : PushRes) : (s.pushCall r res).draws = s.draws + 1 := rfl
@[simp] theorem pushCall_events (s : State) (r : Report) (res : PushRes) : (s.pushCall r res).events = s.events ++ [.push r res] := rfl
@[simp] theorem pushCall_replies (s : State) (r : Report) (res : PushRes) : (s.pushCall r res).replies = s.replies := rfl

@[simp] theorem takeInterrupt_cfg (s : State) : (takeInterrupt s).cfg = s.cfg := rfl
@[simp] theorem takeInterrupt_col (s : State) : (takeInterrupt s).col = s.col := rfl
@[simp] theorem takeInterrupt_raw (s : State) : (takeInterrupt s).raw = s.raw := rfl
@[simp] theorem takeInterrupt_dbs (s : State) : (takeInterrupt s).dbs = s.dbs := rfl
@[simp] theorem takeInterrupt_deb (s : State) : (takeInterrupt s).deb = s.deb := rfl
@[simp] theorem takeInterrupt_layer (s : State) : (takeInterrupt s).layer = s.layer := rfl
@[simp] theorem takeInterrupt_modifier (s : State) : (takeInterrupt s).modifier = s.modifier := rfl
@[simp] theorem takeInterrupt_slots (s : State) : (takeInterrupt s).slots = s.slots := rfl
@[simp] theorem takeInterrupt_rep (s : State) : (takeInterrupt s).rep = s.rep := rfl
@[simp] theorem takeInterrupt_lastSent (s : State) : (takeInterrupt s).lastSent = s.lastSent := rfl
@[simp] theorem takeInterrupt_seqPc (s : State) : (takeInterrupt s).seqPc = s.seqPc := rfl
@[simp] theorem takeInterrupt_seqC (s : State) : (takeInterrupt s).seqC = s.seqC := rfl
@[simp] theorem takeInterrupt_seqK (s : State) : (takeInterrupt s).seqK = s.seqK := rfl
@[simp] theorem takeInterrupt_seqBoot (s : State) : (takeInterrupt s).seqBoot = s.seqBoot := rfl
@[simp] theorem takeInterrupt_brReport (s : State) : (takeInterrupt s).brReport = s.brReport := rfl
@[simp] theorem takeInterrupt_led (s : State) : (takeInterrupt s).led = s.led := rfl
@[simp] theorem takeInterrupt_mask (s : State) : (takeInterrupt s).mask = s.mask := rfl
@[simp] theorem takeInterrupt_irqPending (s : State) : (takeInterrupt s).irqPending = false := rfl
@[simp] theorem takeInterrupt_inIrq (s : State) : (takeInterrupt s).inIrq = true := rfl
@[simp] theorem takeInterrupt_tmrArmed (s : State) : (takeInterrupt s).tmrArmed = s.tmrArmed := rfl
@[simp] theorem takeInterrupt_tmrExpired (s : State) : (takeInterrupt s).tmrExpired = s.tmrExpired := rfl
@[simp] theorem takeInterrupt_booted (s : State) : (takeInterrupt s).booted = s.booted := rfl
@[simp] theorem takeInterrupt_moves (s : State) : (takeInterrupt s).moves = s.moves := rfl
@[simp] theorem takeInterrupt_rowsIn (s : State) : (takeInterrupt s).rowsIn = s.rowsIn := rfl
@[simp] theorem takeInterrupt_pushIn (s : State) : (takeInterrupt s).pushIn = s.pushIn := rfl
@[simp] theorem takeInterrupt_draws (s : State) : (takeInterrupt s).draws = s.draws := rfl
@[simp] theorem takeInterrupt_events (s : State) : (takeInterrupt s).events = s.events := rfl
@[simp] theorem takeInterrupt_replies (s : State) : (takeInterrupt s).replies = s.replies := rfl

@[simp] theorem returnFromInterrupt_cfg (s : State) : (returnFromInterrupt s).cfg = s.cfg := rfl
@[simp] theorem returnFromInterrupt_col (s : State) : (returnFromInterrupt s).col = s.col := rfl
@[simp] theorem returnFromInterrupt_raw (s : State) : (returnFromInterrupt s).raw = s.raw := rfl
@[simp] theorem returnFromInterrupt_dbs (s : State) : (returnFromInterrupt s).dbs = s.dbs := rfl
@[simp] theorem returnFromInterrupt_deb (s : State) : (returnFromInterrupt s).deb = s.deb := rfl
@[simp] theorem returnFromInterrupt_layer (s : State) : (returnFromInterrupt s).layer = s.layer := rfl
@[simp] theorem returnFromInterrupt_modifier (s : State) : (returnFromInterrupt s).modifier = s.modifier := rfl
@[simp] theorem returnFromInterrupt_slots (s : State) : (returnFromInterrupt s).slots = s.slots := rfl
@[simp] theorem returnFromInterrupt_rep (s : State) : (returnFromInterrupt s).rep = s.rep := rfl
@[simp] theorem returnFromInterrupt_lastSent (s : State) : (returnFromInterrupt s).lastSent = s.lastSent := rfl
@[simp] theorem returnFromInterrupt_seqPc (s : State) : (returnFromInterrupt s).seqPc = s.seqPc := rfl
@[simp] theorem returnFromInterrupt_seqC (s : State) : (returnFromInterrupt s).seqC = s.seqC := rfl
@[simp] theorem returnFromInterrupt_seqK (s : State) : (returnFromInterrupt s).seqK = s.seqK := rfl
@[simp] theorem returnFromInterrupt_seqBoot (s : State) : (returnFromInterrupt s).seqBoot = s.seqBoot := rfl
@[simp] theorem returnFromInterrupt_brReport (s : State) : (returnFromInterrupt s).brReport = s.brReport := rfl
@[simp] theorem returnFromInterrupt_led (s : State) : (returnFromInterrupt s).led = s.led := rfl
@[simp] theorem returnFromInterrupt_mask (s : State) : (returnFromInterrupt s).mask = s.mask := rfl
@[simp] theorem returnFromInterrupt_irqPending (s : State) : (returnFromInterrupt s).irqPending = s.irqPending := rfl
@[simp] theorem returnFromInterrupt_inIrq (s : State) : (returnFromInterrupt s).inIrq = false := rfl
@[simp] theorem returnFromInterrupt_tmrArmed (s : State) : (returnFromInterrupt s).tmrArmed = s.tmrArmed := rfl
@[simp] theorem returnFromInterrupt_tmrExpired (s : State) : (returnFromInterrupt s).tmrExpired = s.tmrExpired := rfl
@[simp] theorem returnFromInterrupt_booted (s : State) : (returnFromInterrupt s).booted = s.booted := rfl
@[simp] theorem returnFromInterrupt_moves (s : State) : (returnFromInterrupt s).moves = s.moves := rfl
@[simp] theorem returnFromInterrupt_rowsIn (s : State) : (returnFromInterrupt s).rowsIn = s.rowsIn := rfl
@[simp] theorem returnFromInterrupt_pushIn (s : State) : (returnFromInterrupt s).pushIn = s.pushIn := rfl
@[simp] theorem returnFromInterrupt_draws (s : State) : (returnFromInterrupt s).draws = s.draws := rfl
@[simp] theorem returnFromInterrupt_events (s : State) : (returnFromInterrupt s).events = s.events := rfl
@[simp] theorem returnFromInterrupt_replies (s : State) : (returnFromInterrupt s).replies = s.replies := rfl

@[simp] theorem raiseInterrupt_cfg (s : State) : (raiseInterrupt s).cfg = s.cfg := rfl
@[simp] theorem raiseInterrupt_col (s : State) : (raiseInterrupt s).col = s.col := rfl
@[simp] theorem raiseInterrupt_raw (s : State) : (raiseInterrupt s).raw = s.raw := rfl
@[simp] theorem raiseInterrupt_dbs (s : State) : (raiseInterrupt s).dbs = s.dbs := rfl
@[simp] theorem raiseInterrupt_deb (s : State) : (raiseInterrupt s).deb = s.deb := rfl
@[simp] theorem raiseInterrupt_layer (s : State) : (raiseInterrupt s).layer = s.layer := rfl
@[simp] theorem raiseInterrupt_modifier (s : State) : (raiseInterrupt s).modifier = s.modifier := rfl
@[simp] theorem raiseInterrupt_slots (s : State) : (raiseInterrupt s).slots = s.slots := rfl
@[simp] theorem raiseInterrupt_rep (s : State) : (raiseInterrupt s).rep = s.rep := rfl
@[simp] theorem raiseInterrupt_lastSent (s : State) : (raiseInterrupt s).lastSent = s.lastSent := rfl
@[simp] theorem raiseInterrupt_seqPc (s : State) : (raiseInterrupt s).seqPc = s.seqPc := rfl
@[simp] theorem raiseInterrupt_seqC (s : State) : (raiseInterrupt s).seqC = s.seqC := rfl
@[simp] theorem raiseInterrupt_seqK (s : State) : (raiseInterrupt s).seqK = s.seqK := rfl
@[simp] theorem raiseInterrupt_seqBoot (s : State) : (raiseInterrupt s).seqBoot = s.seqBoot := rfl
@[simp] theorem raiseInterrupt_brReport (s : State) : (raiseInterrupt s).brReport = s.brReport := rfl
@[simp] theorem raiseInterrupt_led (s : State) : (raiseInterrupt s).led = s.led := rfl
@[simp] theorem raiseInterrupt_mask (s : State) : (raiseInterrupt s).mask = s.mask := rfl
@[simp] theorem raiseInterrupt_irqPending (s : State) : (raiseInterrupt s).irqPending = true := rfl
@[simp] theorem raiseInterrupt_inIrq (s : State) : (raiseInterrupt s).inIrq = s.inIrq := rfl
@[simp] theorem raiseInterrupt_tmrArmed (s : State) : (raiseInterrupt s).tmrArmed = s.tmrArmed := rfl
@[simp] theorem raiseInterrupt_tmrExpired (s : State) : (raiseInterrupt s).tmrExpired = s.tmrExpired := rfl
@[simp] theorem raiseInterrupt_booted (s : State) : (raiseInterrupt s).booted = s.booted := rfl
@[simp] theorem raiseInterrupt_moves (s : State) : (raiseInterrupt s).moves = s.moves := rfl
@[simp] theorem raiseInterrupt_rowsIn (s : State) : (raiseInterrupt s).rowsIn = s.rowsIn := rfl
@[simp] theorem raiseInterrupt_pushIn (s : State) : (raiseInterrupt s).pushIn = s.pushIn := rfl
@[simp] theorem raiseInterrupt_draws (s : State) : (raiseInterrupt s).draws = s.draws := rfl
@[simp] theorem raiseInterrupt_events (s : State) : (raiseInterrupt s).events = s.events := rfl
@[simp] theorem raiseInterrupt_replies (s : State) : (raiseInterrupt s).replies = s.replies := rfl

@[simp] theorem expireTimer_cfg (s : State) : (expireTimer s).cfg = s.cfg := rfl
@[simp] theorem expireTimer_col (s : State) : (expireTimer s).col = s.col := rfl
@[simp] theorem expireTimer_raw (s : State) : (expireTimer s).raw = s.raw := rfl
@[simp] theorem expireTimer_dbs (s : State) : (expireTimer s).dbs = s.dbs := rfl
@[simp] theorem expireTimer_deb (s : State) : (expireTimer s).deb = s.deb := rfl
@[simp] theorem expireTimer_layer (s : State) : (expireTimer s).layer = s.layer := rfl
@[simp] theorem expireTimer_modifier (s : State) : (expireTimer s).modifier = s.modifier := rfl
@[simp] theorem expireTimer_slots (s : State) : (expireTimer s).slots = s.slots := rfl
@[simp] theorem expireTimer_rep (s : State) : (expireTimer s).rep = s.rep := rfl
@[simp] theorem expireTimer_lastSent (s : State) : (expireTimer s).lastSent = s.lastSent := rfl
@[simp] theorem expireTimer_seqPc (s : State) : (expireTimer s).seqPc = s.seqPc := rfl
@[simp] theorem expireTimer_seqC (s : State) : (expireTimer s).seqC = s.seqC := rfl
@[simp] theorem expireTimer_seqK (s : State) : (expireTimer s).seqK = s.seqK := rfl
@[simp] theorem expireTimer_seqBoot (s : State) : (expireTimer s).seqBoot = s.seqBoot := rfl
@[simp] theorem expireTimer_brReport (s : State) : (expireTimer s).brReport = s.brReport := rfl
@[simp] theorem expireTimer_led (s : State) : (expireTimer s).led = s.led := rfl
@[simp] theorem expireTimer_mask (s : State) : (expireTimer s).mask = s.mask := rfl
@[simp] theorem expireTimer_irqPending (s : State) : (expireTimer s).irqPending = s.irqPending := rfl
@[simp] theorem expireTimer_inIrq (s : State) : (expireTimer s).inIrq = s.inIrq := rfl
@[simp] theorem expireTimer_tmrArmed (s : State) : (expireTimer s).tmrArmed = s.tmrArmed := rfl
@[simp] theorem expireTimer_tmrExpired (s : State) : (expireTimer s).tmrExpired = true := rfl
@[simp] theorem expireTimer_booted (s : State) : (expireTimer s).booted = s.booted := rfl
@[simp] theorem expireTimer_moves (s : State) : (expireTimer s).moves = s.moves := rfl
@[simp] theorem expireTimer_rowsIn (s : State) : (expireTimer s).rowsIn = s.rowsIn := rfl
@[simp] theorem expireTimer_pushIn (s : State) : (expireTimer s).pushIn = s.pushIn := rfl
@[simp] theorem expireTimer_draws (s : State) : (expireTimer s).draws = s.draws := rfl
@[simp] theorem expireTimer_events (s : State) : (expireTimer s).events = s.events := rfl
@[simp] theorem expireTimer_replies (s : State) : (expireTimer s).replies = s.replies := rfl

end Sys2Proof.Machine
end

