-- ==== Sys2Proof/Laws/Ops.lean ====
section
/-!
SUPPORT. What each shared operation and a step can answer, said once: cite these instead of unfolding.
-/

namespace Sys2Proof.Machine

/-! ### When an operation runs -/

theorem pollEnabled_iff (s : State) : pollEnabled s = true ↔ s.inIrq = false ∧ s.booted = false := by
  simp [pollEnabled]

theorem handlerRuns_iff (s : State) : handlerRuns s = true ↔ s.inIrq = true ∧ s.booted = false := by
  simp [handlerRuns]

theorem irqEnabled_iff (s : State) :
    irqEnabled s = true ↔ s.irqPending = true ∧ s.mask = false ∧ s.inIrq = false ∧ s.booted = false := by
  simp [irqEnabled, and_assoc]

theorem tickEnabled_iff (s : State) :
    tickEnabled s = true ↔ s.tmrArmed = true ∧ s.tmrExpired = false ∧ s.booted = false := by
  simp [tickEnabled, and_assoc]

theorem changedFrom_iff (r : Report) (s : State) : changedFrom r s = true ↔ r ≠ s.lastSent := by simp [changedFrom]

/-- An issued operation that answers a next state was enabled and stood at one of its labels. -/
theorem issuedAt_next_iff (ls : List Label) (s t : State) (k : Out) :
    issuedAt ls s k = .next t ↔ s.inIrq = false ∧ s.booted = false ∧ s.seqPc ∈ ls ∧ k = .next t := by
  unfold issuedAt
  split
  · next h =>
    obtain ⟨h1, h2⟩ := (pollEnabled_iff s).1 h
    split <;> simp [*]
  · next h =>
    have : ¬(s.inIrq = false ∧ s.booted = false) := fun hh => h ((pollEnabled_iff s).2 hh)
    simp only [reduceCtorEq, false_iff]
    exact fun hh => this ⟨hh.1, hh.2.1⟩

/-- Where the poll context may take a step at one of the labels, the operation is its body. -/
theorem issuedAt_of {ls : List Label} {s : State} {k : Out} (h1 : s.inIrq = false) (h2 : s.booted = false)
    (h3 : s.seqPc ∈ ls) : issuedAt ls s k = k := by simp [issuedAt, pollEnabled, h1, h2, h3]

theorem inHandler_next_iff (s t : State) (k : Out) :
    inHandler s k = .next t ↔ s.inIrq = true ∧ s.booted = false ∧ k = .next t := by
  unfold inHandler
  split
  · next h => obtain ⟨h1, h2⟩ := (handlerRuns_iff s).1 h; simp [h1, h2]
  · next h =>
    simp only [reduceCtorEq, false_iff]
    exact fun hh => h ((handlerRuns_iff s).2 ⟨hh.1, hh.2.1⟩)

theorem inHandler_of {s : State} {k : Out} (h1 : s.inIrq = true) (h2 : s.booted = false) : inHandler s k = k := by
  simp [inHandler, handlerRuns, h1, h2]

theorem selected_next_iff (b : Bool) (k : Out) (t : State) : selected b k = .next t ↔ b = true ∧ k = .next t := by
  unfold selected; split <;> simp [*]

theorem writeColumn_next_iff (s t : State) (v : Bool) (l : Label) :
    writeColumn s v l = .next t ↔
      s.seqC < s.cfg.val.ncols ∧
      t = { s with col := s.col.setIfInBounds s.seqC v, events := s.events ++ [.pCol s.seqC v], seqPc := l } := by
  unfold writeColumn; split
  · simp only [Host.Outcome.next.injEq, true_and, *]; exact eq_comm
  · simp [*]

theorem pushChanged_next_iff (s t : State) (k : Report → State) :
    pushChanged s k = .next t ↔ ∃ r, s.rep = some r ∧ r ≠ s.lastSent ∧ t = (k r).goto .lCsExit := by
  unfold pushChanged
  split
  · simp [*]
  · next r hr =>
    rw [selected_next_iff, changedFrom_iff]
    constructor
    · rintro ⟨h, he⟩; exact ⟨r, hr, h, by simpa using he.symm⟩
    · rintro ⟨r', hr', h, rfl⟩; rw [hr] at hr'; cases hr'; exact ⟨h, rfl⟩

theorem encCell_next_iff (s t : State) (k : EncForm → Out) :
    encCell s k = .next t ↔
      s.inIrq = false ∧ s.booted = false ∧ s.seqPc = .lEncCell ∧ ∃ f, encForm s = .ok f ∧ k f = .next t := by
  unfold encCell
  rw [issuedAt_next_iff]
  simp only [List.mem_singleton]
  constructor
  · rintro ⟨h1, h2, h3, h⟩
    split at h
    · cases h
    · next f hf => exact ⟨h1, h2, h3, f, hf, h⟩
  · rintro ⟨h1, h2, h3, f, hf, h⟩
    exact ⟨h1, h2, h3, by rw [hf]; exact h⟩

/-! ### The moves -/

/-- The move that comes next is enabled, unless the block has handed control to the bootloader. -/
theorem nextMove_enabled {s : State} (h : s.booted = false) : moveEnabled s (nextMove s) = true := by
  unfold nextMove
  split
  · assumption
  · unfold defaultMove
    cases hi : s.inIrq <;> simp [moveEnabled, pollEnabled, handlerRuns, h, hi]

/-- A scripted move that is enabled comes next. -/
theorem nextMove_of_scripted {s : State} {m : Move} {rest : List Move} (h : s.moves = m :: rest)
    (he : moveEnabled s m = true) : nextMove s = m := by simp [nextMove, proposedMove, h, he]

theorem step_of_booted {s : State} (h : s.booted = true) : step s = .fault .booted := by simp [step, h]

theorem step_of_move {s : State} (h : s.booted = false) : step s = takeMove exec (nextMove s) s.useMove := by
  simp [step, h]

/-- What a move that answers a next state did: an environment step, or the execution of the instruction its record decodes
to. -/
theorem takeMove_next_cases {run : Instr → State → Out} {m : Move} {s t : State} (h : takeMove run m s = .next t) :
    (m = .raiseIrq ∧ t = raiseInterrupt s) ∨ (m = .tick ∧ t = expireTimer s) ∨
    ∃ bytes i, fetchMove m s = .ok bytes ∧ decode bytes = .ok i ∧ run i s = .next t := by
  have hx : ∀ m', m' = m →
      (match fetchMove m' s with
        | .error f => (.fault f : Out)
        | .ok bytes =>
          match decode bytes with
          | .error e => .refused (.undecodable e)
          | .ok i => run i s) = .next t →
      ∃ bytes i, fetchMove m s = .ok bytes ∧ decode bytes = .ok i ∧ run i s = .next t := by
    rintro _ rfl h
    split at h
    · cases h
    · next bytes hb =>
      split at h
      · cases h
      · next i hi => exact ⟨bytes, i, hb, hi, h⟩
  cases m with
  | raiseIrq => exact .inl ⟨rfl, by simpa [takeMove] using h.symm⟩
  | tick => exact .inr (.inl ⟨rfl, by simpa [takeMove] using h.symm⟩)
  | poll => exact .inr (.inr (hx _ rfl h))
  | irqEnter => exact .inr (.inr (hx _ rfl h))
  | irqExit => exact .inr (.inr (hx _ rfl h))
  | request r => exact .inr (.inr (hx _ rfl h))

/-- What a step that answers a next state did. -/
theorem step_next_cases {s t : State} (h : step s = .next t) :
    s.booted = false ∧
    ((nextMove s = .raiseIrq ∧ t = raiseInterrupt s.useMove) ∨
     (nextMove s = .tick ∧ t = expireTimer s.useMove) ∨
     ∃ bytes i, fetchMove (nextMove s) s.useMove = .ok bytes ∧ decode bytes = .ok i ∧
       exec i s.useMove = .next t) := by
  cases hb : s.booted with
  | true => simp [step, hb] at h
  | false => rw [step_of_move hb] at h; exact ⟨rfl, takeMove_next_cases h⟩

end Sys2Proof.Machine
end

