-- ==== Sys2Proof/Laws/Exec.lean ====
section
/-!
SUPPORT. What each instruction can do, said once: if exec answers a next state, the guards held and the state is the one
ExecResult names. Cite exec_next_result instead of unfolding a meaning.
-/

namespace Sys2Proof.Machine

/-- What a next state says of instruction `i`: where it ran and what it made of the state. -/
def ExecResult (i : Instr) (s t : State) : Prop :=
  match i with
  | .colAssert =>
    pollAt .sAssert s ∧ s.seqC < s.cfg.val.ncols ∧
    t = { s with col := s.col.setIfInBounds s.seqC true, events := s.events ++ [.pCol s.seqC true], seqPc := .sSettle1 }
  | .settle => (pollAt .sSettle1 s ∧ t = s.goto .sSample) ∨ (pollAt .sSettle2 s ∧ t = s.goto .sNext)
  | .rowSample =>
    pollAt .sSample s ∧ s.seqC < s.cfg.val.ncols ∧
    t = ({ s with raw := s.raw.setIfInBounds s.seqC (some (rowAnswer s)) }.useRows).goto .sDeassert
  | .colDeassert =>
    pollAt .sDeassert s ∧ s.seqC < s.cfg.val.ncols ∧
    t = { s with col := s.col.setIfInBounds s.seqC false, events := s.events ++ [.pCol s.seqC false], seqPc := .sSettle2 }
  | .colNext =>
    pollAt .sNext s ∧
    t = { s with seqC := s.seqC + 1 }.goto (if s.seqC + 1 < s.cfg.val.ncols then .sAssert else .sPump)
  | .dbfPump =>
    pollAt .sPump s ∧ ∃ m, s.raw = m.map some ∧
      t = { s with
        dbs := (dbfAnswer s.cfg.val s.dbs m).1
        deb := some (dbfAnswer s.cfg.val s.dbs m).2
        raw := rawUnwritten s.cfg
        events := s.events ++ [.dbfStep]
        seqPc := if s.seqBoot then .bCheck else .lLayer }
  | .bootCheck =>
    pollAt .bCheck s ∧ ∃ b, readDeb s.deb s.cfg.val.bootPos (bootPos_inside s.cfg) = .ok b ∧
      t = s.goto (if b then .bEnter else .bArm)
  | .bootEnter => pollAt .bEnter s ∧ t = { s with booted := true, events := s.events ++ [.bootEnter] }
  | .tmrArmFirst =>
    (pollAt .bArm s ∨ pollAt .lRearm s) ∧ s.seqBoot = true ∧
    t = ({ s with seqBoot := false }.armTimer s.cfg.val.tFirst).goto .lWait
  | .tmrArmPeriod =>
    (pollAt .bArm s ∨ pollAt .lRearm s) ∧ s.seqBoot = false ∧ t = (s.armTimer s.cfg.val.tPeriod).goto .lWait
  | .tmrWait =>
    pollAt .lWait s ∧
    ((s.tmrExpired = true ∧ t = { s with seqC := 0, seqPc := .sAssert }) ∨ (s.tmrExpired = false ∧ t = s))
  | .layerSel =>
    pollAt .lLayer s ∧ ∃ b, readDeb s.deb s.cfg.val.fnPos (fnPos_inside s.cfg) = .ok b ∧
      t = { s with layer := some (if b then .fn else .normal), seqPc := .lEncInit }
  | .encInit =>
    pollAt .lEncInit s ∧
    t = { s with modifier := some 0x00, slots := some (filled 0x00), seqK := 0, seqPc := .lEncCell }
  | .encCellSkip => pollAt .lEncCell s ∧ encForm s = .ok .skip ∧ t = s.advanceCell
  | .encCellEmpty => pollAt .lEncCell s ∧ encForm s = .ok .empty ∧ t = s.advanceCell
  | .encCellMod =>
    pollAt .lEncCell s ∧ ∃ mask m, encForm s = .ok (.modifier mask) ∧ s.modifier = some m ∧
      t = { s with modifier := some (m ||| mask) }.advanceCell
  | .encCellSent =>
    pollAt .lEncCell s ∧ ∃ kc, encForm s = .ok (.sentinel kc) ∧ t = { s with slots := some (filled kc) }.advanceCell
  | .encCellKey =>
    pollAt .lEncCell s ∧ ∃ kc sl, encForm s = .ok (.key kc sl) ∧
      t = { s with slots := some (putKey sl kc) }.advanceCell
  | .encCellOvf =>
    pollAt .lEncCell s ∧ encForm s = .ok .overflow ∧
    t = { s with slots := some (filled s.cfg.val.kcRollover) }.advanceCell
  | .encDone =>
    pollAt .lEncDone s ∧ ∃ m sl, s.modifier = some m ∧ s.slots = some sl ∧
      t = { s with rep := some (assembleReport m sl), seqPc := .lCsEnter }
  | .csEnter => pollAt .lCsEnter s ∧ t = { s with mask := true, seqPc := .lCommit }
  | .commit => pollAt .lCommit s ∧ ∃ r, s.rep = some r ∧ t = { s with brReport := r, seqPc := .lPush }
  | .pushSuppress => pollAt .lPush s ∧ s.rep = some s.lastSent ∧ t = s.goto .lCsExit
  | .pushOk =>
    pollAt .lPush s ∧ ∃ r, s.rep = some r ∧ r ≠ s.lastSent ∧
      t = { s.pushCall r .ok with lastSent := r }.goto .lCsExit
  | .pushWouldBlock =>
    pollAt .lPush s ∧ ∃ r, s.rep = some r ∧ r ≠ s.lastSent ∧ t = (s.pushCall r .wouldBlock).goto .lCsExit
  | .pushHard kind =>
    pollAt .lPush s ∧ ∃ r, s.rep = some r ∧ r ≠ s.lastSent ∧
      t = ((s.pushCall r (.hard kind)).emit [.hardFailure kind]).goto .lCsExit
  | .csExit => pollAt .lCsExit s ∧ t = { s with mask := false, seqPc := .lRearm }
  | .irqEnter =>
    s.irqPending = true ∧ s.mask = false ∧ s.inIrq = false ∧ s.booted = false ∧ t = takeInterrupt s
  | .getReportInput id =>
    inHandlerNow s ∧ t = s.answer (.getReport .input id) (.report (reportBytes s.brReport))
  | .getReportUnsup type id =>
    inHandlerNow s ∧ type ≠ .input ∧ t = rejectRequest s (.getReport type id) type id none
  | .setReportLed b =>
    inHandlerNow s ∧
    t = ({ s with led := ledsOfByte b }.emit (setterEvents (ledsOfByte b))).answer (.setReport .output 0 [b]) .done
  | .setReportUnsup type id payload =>
    inHandlerNow s ∧ setReportAccepted type id payload = false ∧
    t = rejectRequest s (.setReport type id payload) type id (some payload.length)
  | .getDescriptor => inHandlerNow s ∧ t = s.answer .getDescriptor (.descriptor s.cfg.val.descBytes)
  | .irqExit => inHandlerNow s ∧ t = returnFromInterrupt s

/-- What an instruction that answers a next state did. -/
theorem exec_next_result {i : Instr} {s t : State} (h : exec i s = .next t) : ExecResult i s t := by
  cases i <;>
    simp only [exec, execColAssert, execSettle, execRowSample, execColDeassert, execColNext, execDbfPump, execBootCheck,
      execBootEnter, execTmrArmFirst, execTmrArmPeriod, execTmrWait, execLayerSel, execEncInit, execEncCellSkip,
      execEncCellEmpty, execEncCellMod, execEncCellSent, execEncCellKey, execEncCellOvf, execEncDone, execCsEnter,
      execCommit, execPushSuppress, execPushOk, execPushWouldBlock, execPushHard, execCsExit, execIrqEnter, execIrqExit,
      execGetReportInput, execGetReportUnsup, execSetReportLed, execSetReportUnsup, execGetDescriptor,
      issuedAt_next_iff, encCell_next_iff, inHandler_next_iff, selected_next_iff, writeColumn_next_iff,
      pushChanged_next_iff, List.mem_cons, List.not_mem_nil, or_false, Host.Outcome.next.injEq] at h
  case colAssert => obtain ⟨h1, h2, h3, h4, rfl⟩ := h; exact ⟨⟨h1, h2, h3⟩, h4, rfl⟩
  case colDeassert => obtain ⟨h1, h2, h3, h4, rfl⟩ := h; exact ⟨⟨h1, h2, h3⟩, h4, rfl⟩
  case settle =>
    obtain ⟨h1, h2, h3 | h3, rfl⟩ := h
    · exact .inl ⟨⟨h1, h2, h3⟩, by simp [h3]⟩
    · exact .inr ⟨⟨h1, h2, h3⟩, by simp [h3]⟩
  case rowSample =>
    obtain ⟨h1, h2, h3, h⟩ := h
    split at h
    · cases h; exact ⟨⟨h1, h2, h3⟩, by assumption, rfl⟩
    · cases h
  case dbfPump =>
    obtain ⟨h1, h2, h3, h⟩ := h
    split at h
    · cases h
    · next m hm => cases h; exact ⟨⟨h1, h2, h3⟩, m, (wholeRaw_eq_some _ _).1 hm, rfl⟩
  case bootCheck =>
    obtain ⟨h1, h2, h3, h⟩ := h
    split at h
    · cases h
    · next b hb => cases h; exact ⟨⟨h1, h2, h3⟩, b, hb, rfl⟩
  case layerSel =>
    obtain ⟨h1, h2, h3, h⟩ := h
    split at h
    · cases h
    · next b hb => cases h; exact ⟨⟨h1, h2, h3⟩, b, hb, rfl⟩
  case tmrArmFirst =>
    obtain ⟨h1, h2, h3, hb, rfl⟩ := h; exact ⟨h3.imp (⟨h1, h2, ·⟩) (⟨h1, h2, ·⟩), hb, rfl⟩
  case tmrArmPeriod =>
    obtain ⟨h1, h2, h3, hb, rfl⟩ := h
    exact ⟨h3.imp (⟨h1, h2, ·⟩) (⟨h1, h2, ·⟩), by simpa using hb, rfl⟩
  case tmrWait =>
    obtain ⟨h1, h2, h3, h⟩ := h
    refine ⟨⟨h1, h2, h3⟩, ?_⟩
    split at h
    · next he => exact .inl ⟨he, h.symm⟩
    · next he => exact .inr ⟨by simpa using he, by subst h; simp [State.goto, ← h3]⟩
  case encDone =>
    obtain ⟨h1, h2, h3, h⟩ := h
    split at h
    · cases h
    · next m hm =>
      split at h
      · cases h
      · next sl hs => cases h; exact ⟨⟨h1, h2, h3⟩, m, sl, hm, hs, rfl⟩
  case commit =>
    obtain ⟨h1, h2, h3, h⟩ := h
    split at h
    · cases h
    · next r hr => cases h; exact ⟨⟨h1, h2, h3⟩, r, hr, rfl⟩
  case pushSuppress =>
    obtain ⟨h1, h2, h3, h⟩ := h
    split at h
    · cases h
    · next r hr =>
      rw [selected_next_iff] at h
      obtain ⟨hc, h⟩ := h
      cases h
      exact ⟨⟨h1, h2, h3⟩, by rw [hr]; simpa [changedFrom] using hc, rfl⟩
  case pushOk => obtain ⟨h1, h2, h3, r, hr, hne, rfl⟩ := h; exact ⟨⟨h1, h2, h3⟩, r, hr, hne, rfl⟩
  case pushWouldBlock => obtain ⟨h1, h2, h3, r, hr, hne, rfl⟩ := h; exact ⟨⟨h1, h2, h3⟩, r, hr, hne, rfl⟩
  case pushHard => obtain ⟨h1, h2, h3, r, hr, hne, rfl⟩ := h; exact ⟨⟨h1, h2, h3⟩, r, hr, hne, rfl⟩
  case encCellSkip =>
    obtain ⟨h1, h2, h3, f, hf, h⟩ := h
    cases f <;> simp at h
    exact ⟨⟨h1, h2, h3⟩, hf, h.symm⟩
  case encCellEmpty =>
    obtain ⟨h1, h2, h3, f, hf, h⟩ := h
    cases f <;> simp at h
    exact ⟨⟨h1, h2, h3⟩, hf, h.symm⟩
  case encCellMod =>
    obtain ⟨h1, h2, h3, f, hf, h⟩ := h
    cases f <;> simp at h
    split at h
    · cases h
    · next m hm => cases h; exact ⟨⟨h1, h2, h3⟩, _, m, hf, hm, rfl⟩
  case encCellSent =>
    obtain ⟨h1, h2, h3, f, hf, h⟩ := h
    cases f <;> simp at h
    exact ⟨⟨h1, h2, h3⟩, _, hf, h.symm⟩
  case encCellKey =>
    obtain ⟨h1, h2, h3, f, hf, h⟩ := h
    cases f <;> simp at h
    exact ⟨⟨h1, h2, h3⟩, _, _, hf, h.symm⟩
  case encCellOvf =>
    obtain ⟨h1, h2, h3, f, hf, h⟩ := h
    cases f <;> simp at h
    exact ⟨⟨h1, h2, h3⟩, hf, h.symm⟩
  case irqEnter =>
    split at h
    · next he => obtain ⟨h1, h2, h3, h4⟩ := (irqEnabled_iff s).1 he; cases h; exact ⟨h1, h2, h3, h4, rfl⟩
    · cases h
  case getReportInput => obtain ⟨h1, h2, rfl⟩ := h; exact ⟨⟨h1, h2⟩, rfl⟩
  case getReportUnsup => obtain ⟨h1, h2, ht, rfl⟩ := h; exact ⟨⟨h1, h2⟩, by simpa using ht, rfl⟩
  case setReportLed => obtain ⟨h1, h2, rfl⟩ := h; exact ⟨⟨h1, h2⟩, rfl⟩
  case setReportUnsup => obtain ⟨h1, h2, ht, rfl⟩ := h; exact ⟨⟨h1, h2⟩, by simpa using ht, rfl⟩
  case getDescriptor => obtain ⟨h1, h2, rfl⟩ := h; exact ⟨⟨h1, h2⟩, rfl⟩
  case irqExit => obtain ⟨h1, h2, rfl⟩ := h; exact ⟨⟨h1, h2⟩, rfl⟩
  all_goals obtain ⟨h1, h2, h3, rfl⟩ := h; exact ⟨⟨h1, h2, h3⟩, rfl⟩

/-! ### Events -/

/-- An arm starts a count of pushes, a push adds one, any other event leaves it. -/
@[simp] theorem pushesSinceArm_concat (es : List Event) (e : Event) :
    pushesSinceArm (es ++ [e]) =
      if isArm e then 0 else if isPush e then pushesSinceArm es + 1 else pushesSinceArm es := by
  simp [pushesSinceArm]

/-! ### Runs -/

theorem runSteps_add (a b : Nat) (s : State) :
    runSteps (a + b) s =
      match runSteps a s with
      | .next t => runSteps b t
      | .fault r => .fault r
      | .refused r => .refused r := by
  induction a generalizing s with
  | zero => simp [runSteps]
  | succ a ih =>
    rw [Nat.succ_add, runSteps, runSteps]
    cases step s with
    | next t => exact ih t
    | fault r => rfl
    | refused r => rfl

theorem runSteps_of_next {a b : Nat} {s t : State} (h : runSteps a s = .next t) :
    runSteps (a + b) s = runSteps b t := by rw [runSteps_add, h]

/-- A scripted move of the poll context at a label runs the instruction whose record is issued there. -/
theorem step_of_issued {s : State} {rest : List Move} {l : Label} {i : Instr} (h : pollAt l s)
    (hm : s.moves = .poll :: rest) (hf : issueRecord (microprogram l) s.useMove = .ok (encode i))
    (hd : decode (encode i) = .ok i) : step s = exec i s.useMove := by
  rw [step_of_move h.2.1, nextMove_of_scripted hm (by simp [moveEnabled, pollEnabled, h.1, h.2.1])]
  have hl : s.useMove.seqPc = l := h.2.2
  simp only [takeMove, fetchMove]
  rw [hl, hf]
  simp only [hd]

end Sys2Proof.Machine
end

