-- ==== Sys2Proof/Laws/PerInstr.lean ====
section
/-!
SUPPORT. Statements made for every instruction, one lemma per constructor.
-/

namespace Sys2Proof.Laws.EncodeHeader

/-- The record of an instruction starts with the code of its operation and has the four header bytes. -/
def Statement (i : Instr) : Prop :=
  ∃ sel arg id payload, encode i = opByte i.uop :: sel :: arg :: id :: payload

theorem colAssert : Statement .colAssert := ⟨_, _, _, _, rfl⟩

theorem settle : Statement .settle := ⟨_, _, _, _, rfl⟩

theorem rowSample : Statement .rowSample := ⟨_, _, _, _, rfl⟩

theorem colDeassert : Statement .colDeassert := ⟨_, _, _, _, rfl⟩

theorem colNext : Statement .colNext := ⟨_, _, _, _, rfl⟩

theorem dbfPump : Statement .dbfPump := ⟨_, _, _, _, rfl⟩

theorem bootCheck : Statement .bootCheck := ⟨_, _, _, _, rfl⟩

theorem bootEnter : Statement .bootEnter := ⟨_, _, _, _, rfl⟩

theorem tmrArmFirst : Statement .tmrArmFirst := ⟨_, _, _, _, rfl⟩

theorem tmrArmPeriod : Statement .tmrArmPeriod := ⟨_, _, _, _, rfl⟩

theorem tmrWait : Statement .tmrWait := ⟨_, _, _, _, rfl⟩

theorem layerSel : Statement .layerSel := ⟨_, _, _, _, rfl⟩

theorem encInit : Statement .encInit := ⟨_, _, _, _, rfl⟩

theorem encCellSkip : Statement .encCellSkip := ⟨_, _, _, _, rfl⟩

theorem encCellEmpty : Statement .encCellEmpty := ⟨_, _, _, _, rfl⟩

theorem encCellMod : Statement .encCellMod := ⟨_, _, _, _, rfl⟩

theorem encCellSent : Statement .encCellSent := ⟨_, _, _, _, rfl⟩

theorem encCellKey : Statement .encCellKey := ⟨_, _, _, _, rfl⟩

theorem encCellOvf : Statement .encCellOvf := ⟨_, _, _, _, rfl⟩

theorem encDone : Statement .encDone := ⟨_, _, _, _, rfl⟩

theorem csEnter : Statement .csEnter := ⟨_, _, _, _, rfl⟩

theorem commit : Statement .commit := ⟨_, _, _, _, rfl⟩

theorem pushSuppress : Statement .pushSuppress := ⟨_, _, _, _, rfl⟩

theorem pushOk : Statement .pushOk := ⟨_, _, _, _, rfl⟩

theorem pushWouldBlock : Statement .pushWouldBlock := ⟨_, _, _, _, rfl⟩

theorem pushHard (kind : HardKind) : Statement (.pushHard kind) := ⟨_, _, _, _, rfl⟩

theorem csExit : Statement .csExit := ⟨_, _, _, _, rfl⟩

theorem irqEnter : Statement .irqEnter := ⟨_, _, _, _, rfl⟩

theorem getReportInput (id : Byte) : Statement (.getReportInput id) := ⟨_, _, _, _, rfl⟩

theorem getReportUnsup (type : RType) (id : Byte) : Statement (.getReportUnsup type id) := ⟨_, _, _, _, rfl⟩

theorem setReportLed (payload : Byte) : Statement (.setReportLed payload) := ⟨_, _, _, _, rfl⟩

theorem setReportUnsup (type : RType) (id : Byte) (payload : List Byte) : Statement (.setReportUnsup type id payload) := ⟨_, _, _, _, rfl⟩

theorem getDescriptor : Statement .getDescriptor := ⟨_, _, _, _, rfl⟩

theorem irqExit : Statement .irqExit := ⟨_, _, _, _, rfl⟩

end Sys2Proof.Laws.EncodeHeader
end

