-- ==== Sys2Proof/Tests/Slice0.lean ====
section
/-!
SUPPORT. Tests of the model: the smoke test of WellFormed, records written out from the operation maps of spec 30_encoding R97
and R98, single steps whose results are the vectors of 95_test_vectors, and for every obligation with hypotheses a concrete
state that meets them. Expected values come from the spec's file named at each test.
-/

namespace Sys2Proof.Tests

open Sys2Proof Sys2Proof.Machine

/-! ### Helpers -/

/-- A field of the next state of one operation, none where it stops. -/
def fieldAfter {α : Type} (f : State → α) (i : Instr) (s : State) : Option α :=
  match exec i s with
  | .next t => some (f t)
  | .fault _ => none
  | .refused _ => none

/-- Bytes that decode to an instruction. -/
def decodesTo (bytes : List Byte) (i : Instr) : Bool :=
  match decode bytes with
  | .ok j => decide (j = i)
  | .error _ => false

/-- EX right after reset, with the sequencer at a label. -/
abbrev placed (l : Label) : State := { State.reset with seqPc := l }

/-- The matrix of EX with the given cells asserted. -/
def asserted (ps : List Cell) : Matrix 4 3 :=
  Vector.ofFn fun c => Vector.ofFn fun r => decide ((c.val, r.val) ∈ ps)

/-- EX at L_ENC_CELL, visiting cell `k`. -/
abbrev visiting (ps : List Cell) (l : Layer) (k : Nat) (m : Byte) (sl : Slots) : State :=
  { State.reset with
    seqPc := .lEncCell, seqBoot := false, seqC := 4, seqK := k, deb := some (asserted ps), layer := some l,
    modifier := some m, slots := some sl, tmrArmed := true, tmrExpired := true }

/-- The start state of the vectors of 95 section 2.5. -/
abbrev handling : State :=
  { State.reset with inIrq := true, brReport := 0x040002, led := ⟨false, true, false, false, false⟩ }

/-- EX at L_PUSH with a changed report, 95 vector B10. -/
abbrev pushing : State := { placed .lPush with rep := some 0x040000 }

/-- EX with the filter "two equal samples" (95 V13). -/
def twoSampleCfg : WfCfg :=
  ⟨{ exCfg with dbf := ⟨.twoSamples, []⟩ }, by decide +kernel⟩

/-! ### WellFormed -/

/-- A GET_REPORT.UNSUP of type Input is no instruction (44 R182). -/
theorem test_wf_refuses_unsup_input : (Instr.getReportUnsup .input 0).wf = false := by decide

/-- A SET_REPORT.UNSUP of the accepted combination is no instruction (44 R185). -/
theorem test_wf_refuses_unsup_accepted : (Instr.setReportUnsup .output 0 [0x01]).wf = false := by decide

/-- Each of the three parts of the combination counts (44 R185). -/
theorem test_wf_admits_each_mismatch :
    ((Instr.setReportUnsup .input 0 [0x01]).wf && (Instr.setReportUnsup .output 1 [0x01]).wf &&
      (Instr.setReportUnsup .output 0 []).wf && (Instr.setReportUnsup .output 0 [0x01, 0x00]).wf) = true := by decide

/-! ### Decoding, the codes of 30 R97 and R98 written out -/

theorem test_decode_scanner :
    (decodesTo [0b00001, 0, 0, 0] .colAssert && decodesTo [0b00010, 0, 0, 0] .settle &&
      decodesTo [0b00011, 0, 0, 0] .rowSample && decodesTo [0b00100, 0, 0, 0] .colDeassert &&
      decodesTo [0b00101, 0, 0, 0] .colNext) = true := by decide

theorem test_decode_filter_and_layer :
    (decodesTo [0b00110, 0, 0, 0] .dbfPump && decodesTo [0b01011, 0, 0, 0] .layerSel) = true := by decide

theorem test_decode_boot_and_timer :
    (decodesTo [0b00111, 0, 0, 0] .bootCheck && decodesTo [0b01000, 0, 0, 0] .bootEnter &&
      decodesTo [0b01001, 1, 0, 0] .tmrArmFirst && decodesTo [0b01001, 0, 0, 0] .tmrArmPeriod &&
      decodesTo [0b01010, 0, 0, 0] .tmrWait) = true := by decide

/-- The selectors a, cls and f of 30 R97, cls as 30 R93 codes it. -/
theorem test_decode_encoder :
    (decodesTo [0b01100, 0, 0, 0] .encInit && decodesTo [0b01101, 0b0000, 0, 0] .encCellSkip &&
      decodesTo [0b01101, 0b0001, 0, 0] .encCellEmpty && decodesTo [0b01101, 0b0011, 0, 0] .encCellMod &&
      decodesTo [0b01101, 0b0101, 0, 0] .encCellSent && decodesTo [0b01101, 0b0111, 0, 0] .encCellKey &&
      decodesTo [0b01101, 0b1111, 0, 0] .encCellOvf && decodesTo [0b01110, 0, 0, 0] .encDone) = true := by decide

/-- The result codes are those of 60 R230. -/
theorem test_decode_bridge :
    (decodesTo [0b01111, 0, 0, 0] .csEnter && decodesTo [0b10000, 0, 0, 0] .commit &&
      decodesTo [0b10001, 0, 0, 0] .pushSuppress && decodesTo [0b10001, 1, 0, 0] .pushOk &&
      decodesTo [0b10001, 1, 2, 0] .pushWouldBlock && decodesTo [0b10001, 1, 3, 0] (.pushHard .parseError) &&
      decodesTo [0b10001, 1, 7, 0] (.pushHard .invalidState) && decodesTo [0b10010, 0, 0, 0] .csExit) = true := by
  decide

theorem test_decode_interrupt_context :
    (decodesTo [0b11000, 0, 0, 0] .irqEnter && decodesTo [0b11001, 0, 0, 5] (.getReportInput 5) &&
      decodesTo [0b11001, 2, 3, 0] (.getReportUnsup (.other 3) 0) &&
      decodesTo [0b11010, 1, 0, 0, 0x1F] (.setReportLed 0x1F) &&
      decodesTo [0b11010, 1, 0, 1, 0x01] (.setReportUnsup .output 1 [0x01]) &&
      decodesTo [0b11011, 0, 0, 0] .getDescriptor && decodesTo [0b11100, 0, 0, 0] .irqExit) = true := by decide

theorem test_decode_refuses :
    decode [0b10011, 0, 0, 0] = .error (.illegalOp 0b10011) ∧ decode [0x21, 0, 0, 0] = .error (.wideCode 0x21) ∧
    decode [0b01101, 0b0010, 0, 0] = .error (.reservedSelector 2) ∧ decode [1, 0, 0] = .error .truncated :=
  ⟨rfl, rfl, rfl, rfl⟩

/-- The host's two codes mean the two named types, every other code another type (30 R91). -/
theorem test_report_type_codes :
    (List.map exCfg.rtypeCodes.typeOf [1, 2, 0, 3]) = [.input, .output, .other 0, .other 3] := by decide +kernel

/-- The descriptor's structure describes the 8-byte input report and the 1-byte output report (44 R186). -/
theorem test_descriptor_structure : descBits .input = 8 * reportLen ∧ descBits .output = 8 * outReportLen := by decide

/-! ### Single steps: the vectors of 95 sections 2.1 to 2.7 -/

/-- V1. -/
theorem test_colAssert_first_column :
    fieldAfter (fun t => (t.colCells, t.seqPc)) .colAssert State.reset =
      some ([true, false, false, false], .sSettle1) := by decide +kernel

/-- V4. -/
theorem test_colDeassert_second_column :
    fieldAfter (fun t => (t.colCells, t.events)) .colDeassert
        { placed .sDeassert with seqC := 1, col := #v[false, true, false, false] } =
      some ([false, false, false, false], [.pCol 1 false]) := by decide +kernel

/-- V2 and V5. -/
theorem test_settle_both_places :
    fieldAfter (·.seqPc) .settle (placed .sSettle1) = some .sSample ∧
    fieldAfter (·.seqPc) .settle (placed .sSettle2) = some .sNext := by decide +kernel

/-- V3. -/
theorem test_rowSample_second_column :
    fieldAfter (fun t => (t.rawCells, t.seqPc)) .rowSample
        { placed .sSample with seqC := 1, rowsIn := [#v[true, false, true]] } =
      some ([none, some [true, false, true], none, none], .sDeassert) := by decide +kernel

/-- V6. -/
theorem test_colNext_goes_on :
    fieldAfter (fun t => (t.seqC, t.seqPc)) .colNext { placed .sNext with seqC := 2 } = some (3, .sAssert) := by
  decide +kernel

/-- V7. -/
theorem test_colNext_ends_after_the_last :
    fieldAfter (fun t => (t.seqC, t.seqPc)) .colNext { placed .sNext with seqC := 3 } = some (4, .sPump) := by
  decide +kernel

/-- V11. -/
theorem test_dbfPump_in_the_loop :
    fieldAfter (fun t => (t.debCells, t.rawCells, t.seqPc)) .dbfPump
        { placed .sPump with seqBoot := false, raw := (asserted [(1, 0)]).map some } =
      some (some (gridCells (asserted [(1, 0)])), [none, none, none, none], .lLayer) := by decide +kernel

/-- V13. -/
theorem test_dbfPump_two_samples :
    fieldAfter (fun t => (t.debCells, t.dbsCells)) .dbfPump
        { State.resetWith twoSampleCfg with seqPc := .sPump, raw := (asserted [(0, 0)]).map some } =
      some (some (gridCells (asserted [])), [gridCells (asserted [(0, 0)])]) := by decide +kernel

/-- V16. -/
theorem test_layerSel_normal :
    fieldAfter (·.layer) .layerSel { placed .lLayer with deb := some (asserted [(1, 1)]) } =
      some (some .normal) := by decide +kernel

/-- V17. -/
theorem test_layerSel_does_not_latch :
    fieldAfter (·.layer) .layerSel { placed .lLayer with deb := some (asserted [(3, 1)]), layer := some .normal } =
      some (some .fn) := by decide +kernel

/-- B1. -/
theorem test_bootCheck_held :
    fieldAfter (·.seqPc) .bootCheck { placed .bCheck with deb := some (asserted [(0, 0)]) } = some .bEnter := by
  decide +kernel

/-- B2. -/
theorem test_bootCheck_other_keys :
    fieldAfter (·.seqPc) .bootCheck { placed .bCheck with deb := some (asserted [(1, 0), (3, 1)]) } =
      some .bArm := by decide +kernel

/-- B3. -/
theorem test_bootEnter :
    fieldAfter (fun t => (t.booted, t.events)) .bootEnter (placed .bEnter) = some (true, [.bootEnter]) := by
  decide +kernel

/-- B4. -/
theorem test_tmrArmFirst :
    fieldAfter (fun t => (t.tmrArmed, t.tmrExpired, t.seqBoot, t.events)) .tmrArmFirst
        { placed .bArm with seqC := 4 } =
      some (true, false, false, [.tmrArm 500000]) := by decide +kernel

/-- B15. -/
theorem test_tmrArmPeriod :
    fieldAfter (fun t => (t.tmrArmed, t.tmrExpired, t.events)) .tmrArmPeriod
        { placed .lRearm with seqBoot := false, tmrArmed := true, tmrExpired := true } =
      some (true, false, [.tmrArm 8000]) := by decide +kernel

/-- B5. -/
theorem test_tmrWait_stays :
    fieldAfter (·.seqPc) .tmrWait { placed .lWait with tmrArmed := true } = some .lWait := by decide +kernel

/-- B6. -/
theorem test_tmrWait_starts_a_scan :
    fieldAfter (fun t => (t.seqPc, t.seqC, t.seqK, t.tmrExpired)) .tmrWait
        { placed .lWait with seqC := 4, seqK := 12, tmrArmed := true, tmrExpired := true } =
      some (.sAssert, 0, 12, true) := by decide +kernel

/-- V19. -/
theorem test_encInit :
    fieldAfter (fun t => (t.modifier, t.slots, t.seqK)) .encInit
        { placed .lEncInit with seqK := 12, modifier := some 0x02, slots := some #v[4, 5, 0, 0, 0, 0] } =
      some (some 0x00, some #v[0, 0, 0, 0, 0, 0], 0) := by decide +kernel

/-- V20, for SKIP. -/
theorem test_encCellSkip_last_cell :
    fieldAfter (fun t => (t.seqK, t.seqPc)) .encCellSkip (visiting [] .normal 11 0 #v[0, 0, 0, 0, 0, 0]) =
      some (12, .lEncDone) := by decide +kernel

/-- E14, cell (3,1). -/
theorem test_encCellEmpty_layer_key :
    fieldAfter (fun t => (t.modifier, t.slots)) .encCellEmpty (visiting [(3, 1)] .fn 10 0 #v[1, 1, 1, 1, 1, 1]) =
      some (some 0, some #v[1, 1, 1, 1, 1, 1]) := by decide +kernel

/-- E7, cell (3,2). -/
theorem test_encCellMod_after_overflow :
    fieldAfter (fun t => (t.modifier, t.slots)) .encCellMod (visiting [(3, 2)] .normal 11 0 #v[1, 1, 1, 1, 1, 1]) =
      some (some 0x40, some #v[1, 1, 1, 1, 1, 1]) := by decide +kernel

/-- V21. -/
theorem test_encCellMod_same_bit :
    fieldAfter (·.modifier) .encCellMod (visiting [(0, 2)] .normal 2 0x01 #v[0, 0, 0, 0, 0, 0]) =
      some (some 0x01) := by decide +kernel

/-- E13, cell (1,0). -/
theorem test_encCellSent_overwrites_a_key :
    fieldAfter (·.slots) .encCellSent (visiting [(1, 0)] .fn 3 0 #v[0x35, 0, 0, 0, 0, 0]) =
      some (some #v[2, 2, 2, 2, 2, 2]) := by decide +kernel

/-- E7, cell (2,2): the sixth key. -/
theorem test_encCellKey_sixth :
    fieldAfter (·.slots) .encCellKey (visiting [(2, 2)] .normal 8 0 #v[4, 5, 6, 7, 8, 0]) =
      some (some #v[4, 5, 6, 7, 8, 9]) := by decide +kernel

/-- E7, cell (3,0): the seventh key. -/
theorem test_encCellOvf_seventh :
    fieldAfter (·.slots) .encCellOvf (visiting [(3, 0)] .normal 9 0 #v[4, 5, 6, 7, 8, 9]) =
      some (some #v[1, 1, 1, 1, 1, 1]) := by decide +kernel

/-- E14, cell (1,1): a normal key after a Sentinel fill. -/
theorem test_encCellOvf_after_sentinel :
    fieldAfter (·.slots) .encCellOvf (visiting [(1, 1)] .fn 4 0 #v[2, 2, 2, 2, 2, 2]) =
      some (some #v[1, 1, 1, 1, 1, 1]) := by decide +kernel

/-- V22. -/
theorem test_encDone :
    fieldAfter (fun t => (t.rep.map reportBytes, t.seqPc)) .encDone
        { placed .lEncDone with modifier := some 0x03, slots := some #v[5, 7, 0, 0, 0, 0] } =
      some (some [0x03, 0, 0x05, 0x07, 0, 0, 0, 0], .lCsEnter) := by decide +kernel

/-- B7. -/
theorem test_csEnter_masks :
    fieldAfter (fun t => (t.mask, irqEnabled t)) .csEnter { placed .lCsEnter with irqPending := true } =
      some (true, false) := by decide +kernel

/-- B8. -/
theorem test_commit :
    fieldAfter (fun t => reportBytes t.brReport) .commit { placed .lCommit with rep := some 0x040000 } =
      some [0, 0, 4, 0, 0, 0, 0, 0] := by decide +kernel

/-- B9. -/
theorem test_pushSuppress :
    fieldAfter (fun t => (t.events, t.lastSent)) .pushSuppress { pushing with lastSent := 0x040000 } =
      some ([], 0x040000) := by decide +kernel

/-- B10. -/
theorem test_pushOk :
    fieldAfter (fun t => (t.events, t.lastSent)) .pushOk pushing =
      some ([.push 0x040000 .ok], 0x040000) := by decide +kernel

/-- B11. -/
theorem test_pushWouldBlock :
    fieldAfter (fun t => (t.events, t.lastSent)) .pushWouldBlock pushing =
      some ([.push 0x040000 .wouldBlock], 0) := by decide +kernel

/-- B12. -/
theorem test_pushHard :
    fieldAfter (fun t => (t.events, t.lastSent)) (.pushHard .overflow) pushing =
      some ([.push 0x040000 (.hard .overflow), .hardFailure .overflow], 0) := by decide +kernel

/-- B14. -/
theorem test_csExit_unmasks :
    fieldAfter (fun t => (t.mask, irqEnabled t)) .csExit { placed .lCsExit with mask := true, irqPending := true } =
      some (false, true) := by decide +kernel

/-- B16. -/
theorem test_irqEnter :
    fieldAfter (fun t => (t.irqPending, t.inIrq, pollEnabled t)) .irqEnter { State.reset with irqPending := true } =
      some (false, true, false) := by decide +kernel

/-- B17. -/
theorem test_irqEnter_masked :
    fieldAfter (·.inIrq) .irqEnter { State.reset with irqPending := true, mask := true } = none := by decide +kernel

/-- B18. -/
theorem test_irqExit_pending_again :
    fieldAfter (fun t => (t.inIrq, irqEnabled t)) .irqExit { State.reset with inIrq := true, irqPending := true } =
      some (false, true) := by decide +kernel

/-- H2. -/
theorem test_getReportInput_any_id :
    fieldAfter (·.replies) (.getReportInput 5) handling =
      some [(.getReport .input 5, .report [0x02, 0, 0x04, 0, 0, 0, 0, 0])] := by decide +kernel

/-- H4. -/
theorem test_getReportUnsup :
    fieldAfter (·.replies) (.getReportUnsup (.other 3) 0) handling =
      some [(.getReport (.other 3) 0, .unsupportedReport (.other 3) 0 none)] := by decide +kernel

/-- H6. -/
theorem test_setReportLed_kana :
    fieldAfter (·.led) (.setReportLed 0x10) handling = some ⟨false, false, false, false, true⟩ := by decide +kernel

/-- H9: bits 7:5 have no effect, all five are cleared, five setters are called. -/
theorem test_setReportLed_reserved_bits :
    fieldAfter (fun t => (t.led, t.events.length)) (.setReportLed 0xE0) handling =
      some (⟨false, false, false, false, false⟩, 5) := by decide +kernel

/-- H12. -/
theorem test_setReportUnsup_two_bytes :
    fieldAfter (fun t => (t.led, t.events)) (.setReportUnsup .output 0 [0x01, 0x00]) handling =
      some (⟨false, true, false, false, false⟩, []) := by decide +kernel

/-- H13. -/
theorem test_setReportUnsup_id :
    fieldAfter (·.replies) (.setReportUnsup .output 1 [0x01]) handling =
      some [(.setReport .output 1 [0x01], .unsupportedReport .output 1 (some 1))] := by decide +kernel

/-- H16. -/
theorem test_getDescriptor :
    fieldAfter (fun t => decide (t.replies = [(.getDescriptor, .descriptor exDescriptor)])) .getDescriptor handling =
      some true := by decide +kernel

/-- The table word of COMMIT, placed after reset, runs as the next step. -/
theorem test_withFetchWord_runs :
    decodeTableWord 5 0b10000 = some .commit ∧
    (match step (State.reset.withFetchWord 5 0b10000) with
     | .next t => decide (t.seqPc = .lPush)
     | .fault _ => false
     | .refused _ => false) = true := by decide +kernel

/-- Z2: the first operation after reset is COL_ASSERT of column 0, when the poll context moves. -/
theorem test_first_operation_after_reset :
    fetchMove .poll State.reset = .ok [0b00001, 0, 0, 0] ∧ State.reset.seqC = 0 := ⟨rfl, rfl⟩

/-! ### Witnesses: the hypotheses of the obligations are met -/

/-- A completed operation, for the statements about a next state. -/
def Completes (i : Instr) (s : State) : Prop := ∃ t, exec i s = .next t

theorem completes_of_fieldAfter {i : Instr} {s : State} (h : fieldAfter (fun _ => true) i s = some true) :
    Completes i s := by
  unfold fieldAfter at h
  split at h
  · exact ⟨_, ‹_›⟩
  all_goals cases h

theorem test_witness_DecodeOfEncode : (Instr.setReportUnsup .output 0 [0x01, 0x02]).wf = true := by decide

theorem test_witness_DecodedRecord : decode [0b11001, 2, 0xFF, 0xFF] = .ok (.getReportUnsup (.other 0xFF) 0xFF) := rfl

theorem test_witness_IllegalCodes :
    Uop.ofCode 0b00000 = none ∧ Uop.ofCode 0b10011 = none ∧ Uop.ofCode 0b10111 = none ∧
    Uop.ofCode 0b11101 = none ∧ Uop.ofCode 0b11111 = none ∧ Uop.ofCode 0b11000 = some .irqEnter := by decide

theorem test_witness_StepRuns_poll :
    let s := State.reset.withEnv [.poll] [] []
    s.booted = false ∧ nextMove s = .poll ∧ fetchMove .poll s.useMove = .ok [1, 0, 0, 0] ∧
    decode [1, 0, 0, 0] = .ok .colAssert := ⟨rfl, rfl, rfl, rfl⟩

theorem test_witness_StepRuns_request :
    let s := handling.withEnv [.request (.getReport .input 5)] [] []
    s.booted = false ∧ nextMove s = .request (.getReport .input 5) ∧
    fetchMove (.request (.getReport .input 5)) s.useMove = .ok [0b11001, 0, 0, 5] ∧
    decode [0b11001, 0, 0, 5] = .ok (.getReportInput 5) := ⟨rfl, rfl, rfl, rfl⟩

theorem test_witness_IssuedRecords :
    fetchMove .poll State.reset = .ok [1, 0, 0, 0] ∧
    (let s := { pushing with pushIn := [.hard .invalidState] }
     s.seqPc = .lPush ∧ s.rep = some 0x040000 ∧ 0x040000#64 ≠ s.lastSent ∧ s.pushIn = [.hard .invalidState]) :=
  ⟨rfl, rfl, rfl, by decide, rfl⟩

/-- B19 and the expiry of program P2. -/
theorem test_witness_EnvironmentMoves :
    (let s := { State.reset with moves := [.raiseIrq], irqPending := true }
     s.booted = false ∧ s.moves = [.raiseIrq]) ∧
    (let s := { placed .lWait with moves := [.tick, .poll], tmrArmed := true }
     pollAt .lWait s ∧ s.booted = false ∧ s.tmrArmed = true ∧ s.tmrExpired = false ∧ s.moves = [.tick, .poll]) :=
  ⟨⟨rfl, rfl⟩, ⟨rfl, rfl, rfl⟩, rfl, rfl, rfl, rfl⟩

theorem test_witness_Booted : { placed .bEnter with booted := true }.booted = true := rfl

/-- An operation of each context completes; so do IRQ_ENTER and a request. -/
theorem test_witness_OperationsRun :
    Completes .colAssert State.reset ∧ Completes .irqEnter { State.reset with irqPending := true } ∧
    Completes (.setReportLed 0x1F) handling := ⟨⟨_, rfl⟩, ⟨_, rfl⟩, ⟨_, rfl⟩⟩

theorem test_witness_MaskAndHandler :
    (let s := { placed .lPush with mask := true }
     s.mask = true ∧ s.booted = false) ∧
    (handling.inIrq = true ∧ handling.booted = false) := ⟨⟨rfl, rfl⟩, rfl, rfl⟩

theorem test_witness_UnwrittenRead_matrix :
    (pollAt .sPump (placed .sPump) ∧ none ∈ (placed .sPump).raw) ∧
    (pollAt .bCheck (placed .bCheck) ∧ (placed .bCheck).deb = none) ∧
    (pollAt .lLayer (placed .lLayer) ∧ (placed .lLayer).deb = none) ∧
    (pollAt .lEncCell (placed .lEncCell) ∧ Instr.encCellKey.uop = .encCell ∧ (placed .lEncCell).deb = none) :=
  ⟨⟨⟨rfl, rfl, rfl⟩, by decide +kernel⟩, ⟨⟨rfl, rfl, rfl⟩, rfl⟩, ⟨⟨rfl, rfl, rfl⟩, rfl⟩, ⟨rfl, rfl, rfl⟩, rfl, rfl⟩

/-- DEB is written and the visited cell asserted, LAYER, SLOT or MOD is not written. -/
theorem test_witness_UnwrittenRead_encoder :
    (let s := { placed .lEncCell with deb := some (asserted [(0, 0)]) }
     pollAt .lEncCell s ∧ arrayAt (asserted [(0, 0)]) (visitedCell s) = some true ∧ s.layer = none) ∧
    (let s := { placed .lEncCell with deb := some (asserted [(0, 0)]), layer := some .normal }
     pollAt .lEncCell s ∧ visitsKey 0x29 s ∧ classOf s.cfg.val 0x29 = .normal ∧ s.slots = none) ∧
    (let s := { placed .lEncCell with deb := some (asserted [(0, 1)]), layer := some .normal, seqK := 1 }
     pollAt .lEncCell s ∧ visitsKey 0xE1 s ∧ classOf s.cfg.val 0xE1 = .modifier 0x02 ∧ s.modifier = none) :=
  ⟨⟨⟨rfl, rfl, rfl⟩, rfl, rfl⟩,
   ⟨⟨rfl, rfl, rfl⟩, ⟨⟨_, rfl, rfl⟩, ⟨_, rfl, rfl⟩⟩, by decide +kernel, rfl⟩,
   ⟨rfl, rfl, rfl⟩, ⟨⟨_, rfl, rfl⟩, ⟨_, rfl, rfl⟩⟩, by decide +kernel, rfl⟩

theorem test_witness_UnwrittenRead_report :
    (pollAt .lEncDone (placed .lEncDone) ∧ (placed .lEncDone).modifier = none) ∧
    (let s := { placed .lEncDone with modifier := some 0x00 }
     pollAt .lEncDone s ∧ s.modifier ≠ none ∧ s.slots = none) ∧
    (pollAt .lCommit (placed .lCommit) ∧ (placed .lCommit).rep = none) ∧
    (pollAt .lPush (placed .lPush) ∧ (Instr.pushHard .overflow).uop = .push ∧ (placed .lPush).rep = none) :=
  ⟨⟨⟨rfl, rfl, rfl⟩, rfl⟩, ⟨⟨rfl, rfl, rfl⟩, by decide, rfl⟩, ⟨⟨rfl, rfl, rfl⟩, rfl⟩, ⟨rfl, rfl, rfl⟩, rfl, rfl⟩

/-- The last column. -/
theorem test_witness_ColumnDrive :
    (let s := { placed .sAssert with seqC := 3 }
     pollAt .sAssert s ∧ s.seqC < s.cfg.val.ncols) ∧
    (let s := { placed .sDeassert with seqC := 3 }
     pollAt .sDeassert s ∧ s.seqC < s.cfg.val.ncols) :=
  ⟨⟨⟨rfl, rfl, rfl⟩, by decide⟩, ⟨rfl, rfl, rfl⟩, by decide⟩

theorem test_witness_Settle : pollAt .sSettle1 (placed .sSettle1) ∧ pollAt .sSettle2 (placed .sSettle2) :=
  ⟨⟨rfl, rfl, rfl⟩, rfl, rfl, rfl⟩

theorem test_witness_RowSample :
    let s := { placed .sSample with seqC := 3, rowsIn := [#v[true, false, true]] }
    pollAt .sSample s ∧ s.seqC < s.cfg.val.ncols ∧ s.rowsIn = #v[true, false, true] :: [] :=
  ⟨⟨rfl, rfl, rfl⟩, by decide, rfl⟩

theorem test_witness_ColNext : pollAt .sNext { placed .sNext with seqC := 3 } := ⟨rfl, rfl, rfl⟩

theorem test_witness_DbfPump :
    let s := { placed .sPump with raw := (asserted [(3, 2)]).map some }
    pollAt .sPump s ∧ s.raw = (asserted [(3, 2)]).map some := ⟨⟨rfl, rfl, rfl⟩, rfl⟩

theorem test_witness_BootCheck :
    (let s := { placed .bCheck with deb := some (asserted [(0, 0)]) }
     pollAt .bCheck s ∧ arrayAt (asserted [(0, 0)]) s.cfg.val.bootPos = some true) ∧
    (let s := { placed .bCheck with deb := some (asserted [(0, 1)]) }
     pollAt .bCheck s ∧ arrayAt (asserted [(0, 1)]) s.cfg.val.bootPos = some false) ∧
    pollAt .bEnter (placed .bEnter) := ⟨⟨⟨rfl, rfl, rfl⟩, rfl⟩, ⟨⟨rfl, rfl, rfl⟩, rfl⟩, rfl, rfl, rfl⟩

theorem test_witness_TimerArm :
    (pollAt .bArm (placed .bArm) ∧ (placed .bArm).seqBoot = true ∧ Completes .tmrArmFirst (placed .bArm)) ∧
    (let s := { placed .lRearm with seqBoot := false }
     pollAt .lRearm s ∧ s.seqBoot = false ∧ Completes .tmrArmPeriod s) :=
  ⟨⟨⟨rfl, rfl, rfl⟩, rfl, ⟨_, rfl⟩⟩, ⟨rfl, rfl, rfl⟩, rfl, ⟨_, rfl⟩⟩

theorem test_witness_TimerWait :
    (let s := { placed .lWait with tmrExpired := true }
     pollAt .lWait s ∧ s.tmrExpired = true) ∧
    (pollAt .lWait (placed .lWait) ∧ (placed .lWait).tmrExpired = false) :=
  ⟨⟨⟨rfl, rfl, rfl⟩, rfl⟩, ⟨rfl, rfl, rfl⟩, rfl⟩

theorem test_witness_LayerSelect :
    (let s := { placed .lLayer with deb := some (asserted [(3, 1)]) }
     pollAt .lLayer s ∧ arrayAt (asserted [(3, 1)]) s.cfg.val.fnPos = some true) ∧
    (let s := { placed .lLayer with deb := some (asserted [(3, 0)]) }
     pollAt .lLayer s ∧ arrayAt (asserted [(3, 0)]) s.cfg.val.fnPos = some false) :=
  ⟨⟨⟨rfl, rfl, rfl⟩, rfl⟩, ⟨rfl, rfl, rfl⟩, rfl⟩

theorem test_witness_EncInit : pollAt .lEncInit (placed .lEncInit) := ⟨rfl, rfl, rfl⟩

theorem test_witness_EncCellSkip :
    let s := visiting [] .normal 11 0 (filled 0)
    pollAt .lEncCell s ∧ s.deb = some (asserted []) ∧ arrayAt (asserted []) (visitedCell s) = some false :=
  ⟨⟨rfl, rfl, rfl⟩, rfl, rfl⟩

theorem test_witness_EncCellEmpty :
    let s := visiting [(3, 1)] .normal 10 0 (filled 0)
    pollAt .lEncCell s ∧ visitsKey 0x00 s ∧ classOf s.cfg.val 0x00 = .empty :=
  ⟨⟨rfl, rfl, rfl⟩, ⟨⟨_, rfl, rfl⟩, ⟨_, rfl, rfl⟩⟩, by decide +kernel⟩

theorem test_witness_EncCellMod :
    let s := visiting [(3, 2)] .normal 11 0x03 (filled 0)
    pollAt .lEncCell s ∧ visitsKey 0xE6 s ∧ classOf s.cfg.val 0xE6 = .modifier 0x40 ∧ s.modifier = some 0x03 :=
  ⟨⟨rfl, rfl, rfl⟩, ⟨⟨_, rfl, rfl⟩, ⟨_, rfl, rfl⟩⟩, by decide +kernel, rfl⟩

theorem test_witness_EncCellSentinel :
    let s := visiting [(1, 0)] .fn 3 0 (filled 0)
    pollAt .lEncCell s ∧ visitsKey 0x02 s ∧ classOf s.cfg.val 0x02 = .sentinel :=
  ⟨⟨rfl, rfl, rfl⟩, ⟨⟨_, rfl, rfl⟩, ⟨_, rfl, rfl⟩⟩, by decide +kernel⟩

/-- The last slot is the first empty one. -/
theorem test_witness_EncCellKey :
    let s := visiting [(2, 2)] .normal 8 0 #v[4, 5, 6, 7, 8, 0]
    pollAt .lEncCell s ∧ visitsKey 0x09 s ∧ classOf s.cfg.val 0x09 = .normal ∧
    s.slots = some #v[4, 5, 6, 7, 8, 0] ∧
    (∀ i (h : i < 5), (#v[4, 5, 6, 7, 8, 0] : Slots)[i] ≠ 0x00) ∧ (#v[4, 5, 6, 7, 8, 0] : Slots)[5] = 0x00 :=
  ⟨⟨rfl, rfl, rfl⟩, ⟨⟨_, rfl, rfl⟩, ⟨_, rfl, rfl⟩⟩, by decide +kernel, rfl, by decide, rfl⟩

theorem test_witness_EncCellOvf :
    let s := visiting [(3, 0)] .normal 9 0 #v[4, 5, 6, 7, 8, 9]
    pollAt .lEncCell s ∧ visitsKey 0x0A s ∧ classOf s.cfg.val 0x0A = .normal ∧
    s.slots = some #v[4, 5, 6, 7, 8, 9] ∧ (∀ i (h : i < 6), (#v[4, 5, 6, 7, 8, 9] : Slots)[i] ≠ 0x00) :=
  ⟨⟨rfl, rfl, rfl⟩, ⟨⟨_, rfl, rfl⟩, ⟨_, rfl, rfl⟩⟩, by decide +kernel, rfl, by decide⟩

theorem test_witness_EncDone :
    let s := { placed .lEncDone with modifier := some 0x03, slots := some (filled 0) }
    pollAt .lEncDone s ∧ s.modifier = some 0x03 ∧ s.slots = some (filled 0) := ⟨⟨rfl, rfl, rfl⟩, rfl, rfl⟩

theorem test_witness_CriticalSection :
    pollAt .lCsEnter (placed .lCsEnter) ∧
    (let s := { placed .lCsExit with mask := true, irqPending := true }
     pollAt .lCsExit s ∧ Completes .csExit s ∧ s.irqPending = true) :=
  ⟨⟨rfl, rfl, rfl⟩, ⟨rfl, rfl, rfl⟩, ⟨_, rfl⟩, rfl⟩

theorem test_witness_Commit :
    let s := { placed .lCommit with rep := some 0x040000 }
    pollAt .lCommit s ∧ s.rep = some 0x040000 := ⟨⟨rfl, rfl, rfl⟩, rfl⟩

/-- B13: the idle first cycle. -/
theorem test_witness_PushSuppress :
    let s := { placed .lPush with rep := some 0 }
    pollAt .lPush s ∧ s.rep = some s.lastSent ∧ Instr.pushSuppress.uop = .push ∧ Completes .pushSuppress s :=
  ⟨⟨rfl, rfl, rfl⟩, rfl, rfl, ⟨_, rfl⟩⟩

/-- Also for WOULDBLOCK and HARD: a changed report; PUSH.OK changes LAST_SENT. -/
theorem test_witness_PushChanged :
    pollAt .lPush pushing ∧ pushing.rep = some 0x040000 ∧ 0x040000#64 ≠ pushing.lastSent ∧
    ∃ t, exec .pushOk pushing = .next t ∧ t.lastSent ≠ pushing.lastSent :=
  ⟨⟨rfl, rfl, rfl⟩, rfl, by decide, _, rfl, by decide⟩

theorem test_witness_RepeatedReport :
    ∃ t, exec .pushOk pushing = .next t ∧
      (let u := { pushing with lastSent := t.lastSent }
       pollAt .lPush u ∧ u.lastSent = t.lastSent ∧ u.rep = pushing.rep ∧ Completes .pushSuppress u) :=
  ⟨_, rfl, ⟨rfl, rfl, rfl⟩, rfl, rfl, ⟨_, rfl⟩⟩

theorem test_witness_Interrupt :
    (let s := { State.reset with irqPending := true }
     s.irqPending = true ∧ s.mask = false ∧ s.inIrq = false ∧ s.booted = false) ∧ inHandlerNow handling :=
  ⟨⟨rfl, rfl, rfl, rfl⟩, rfl, rfl⟩

/-- For all five host requests. -/
theorem test_witness_Requests :
    inHandlerNow handling ∧ RType.output ≠ .input ∧ Completes (.getReportUnsup .output 0) handling ∧
    (RType.input ≠ .output ∨ (0 : Byte) ≠ 0 ∨ [(1 : Byte)].length ≠ 1) ∧
    (RType.output ≠ .output ∨ (1 : Byte) ≠ 0 ∨ [(1 : Byte)].length ≠ 1) ∧
    (RType.output ≠ .output ∨ (0 : Byte) ≠ 0 ∨ ([] : List Byte).length ≠ 1) ∧
    Completes (.setReportUnsup .output 0 []) handling :=
  ⟨⟨rfl, rfl⟩, by decide, ⟨_, rfl⟩, by decide, by decide, by decide, ⟨_, rfl⟩⟩

/-- A step, and an operation that changes what it writes. -/
theorem test_witness_OnlyTheNamed :
    (∃ t, step (State.reset.withEnv [.poll] [] []) = .next t) ∧
    (∃ t, exec .colAssert State.reset = .next t ∧ t.colCells ≠ State.reset.colCells) ∧
    (∃ t, exec (.setReportLed 0x01) handling = .next t ∧ t.led ≠ handling.led) :=
  ⟨⟨_, rfl⟩, ⟨_, rfl, by decide⟩, _, rfl, by decide⟩

theorem test_witness_Contexts :
    (ofIrqContext .getDescriptor = true ∧ Completes .getDescriptor handling) ∧
    (ofIrqContext .colAssert = false ∧ Completes .colAssert State.reset) := ⟨⟨rfl, _, rfl⟩, rfl, _, rfl⟩

theorem test_witness_OnlyThePump :
    Instr.rowSample ≠ .dbfPump ∧ Completes .dbfPump { placed .sPump with raw := (asserted []).map some } :=
  ⟨by decide, completes_of_fieldAfter (by decide +kernel)⟩

/-! ### Witnesses: states that meet the invariants -/

/-- EX inside the encoder's walk, at its last cell, on the wait for the next move. -/
abbrev walking : State := { visiting [(3, 0)] .normal 11 0 (filled 0) with moves := [.poll], events := [.tmrArm 500000] }

/-- EX at the wait with the period elapsed, and the poll context's moves for one cycle. -/
abbrev waiting : State :=
  { State.reset with
    seqPc := .lWait, seqBoot := false, seqC := 4, deb := some (asserted []), tmrArmed := true, tmrExpired := true,
    moves := List.replicate 46 .poll }

theorem slotShape_zero (c : Cfg) : SlotShape c (filled 0) :=
  .inl ⟨0, by decide, fun i h => by simp [filled]⟩

theorem walking_inv : Inv walking where
  sequencer := by constructor <;> decide
  scanner := ⟨by decide, by decide⟩
  pipeline :=
    { deb_written := by decide
      layer_written := by decide
      modifier_written := by decide
      slots_written := by decide
      slots_shape := fun sl h => by injection h with h; subst h; exact slotShape_zero _
      rep_written := by decide }
  timer := by constructor <;> decide

theorem waiting_inv : Inv waiting where
  sequencer := by constructor <;> decide
  scanner := ⟨by decide, by decide⟩
  pipeline :=
    { deb_written := by decide
      layer_written := by decide
      modifier_written := by decide
      slots_written := by decide
      slots_shape := fun sl h => by cases h
      rep_written := by decide }
  timer := by constructor <;> decide

theorem test_witness_ExactlyOneForm :
    (Inv walking ∧ pollAt .lEncCell walking) ∧ Instr.encCellSkip.uop = .encCell ∧ Completes .encCellSkip walking :=
  ⟨⟨walking_inv, rfl, rfl, rfl⟩, rfl, _, rfl⟩

theorem test_witness_StepKeepsTheInvariant : Inv walking ∧ ∃ t, step walking = .next t := ⟨walking_inv, _, rfl⟩

theorem test_witness_InvariantStatesStep : Inv walking ∧ walking.booted = false := ⟨walking_inv, rfl⟩

/-- The report registers hold zero reports, which have the shape. -/
theorem test_witness_ReportsWellShaped : ReportInv walking ∧ ∃ t, step walking = .next t :=
  ⟨{ slots_shape := fun sl h => by injection h with h; subst h; exact slotShape_zero _
     rep_shape := fun r h => by cases h
     bridge_shape := ⟨0, filled 0, slotShape_zero _, by decide⟩
     sent_shape := ⟨0, filled 0, slotShape_zero _, by decide⟩ }, _, rfl⟩

theorem prefix_of_one {α : Type} {es : List α} {e : α} (h : es <+: [e]) : es = [] ∨ es = [e] := by
  rcases List.prefix_cons_iff.1 h with rfl | ⟨r, rfl, hr⟩
  · exact .inl rfl
  · exact .inr (by rw [List.prefix_nil.1 hr])

theorem walking_push : PushInv walking where
  one_a_period es h := by rcases prefix_of_one h with rfl | rfl <;> decide
  armed_first es h := by rcases prefix_of_one h with rfl | rfl <;> decide
  boot_unarmed := by decide
  not_yet := by decide

theorem test_witness_OnePushPerPeriod : Inv walking ∧ PushInv walking ∧ ∃ t, step walking = .next t :=
  ⟨walking_inv, walking_push, _, rfl⟩

/-- The last column line is asserted in the first scan. -/
abbrev settling : State :=
  { placed .sSettle1 with
    seqC := 3, col := #v[false, false, false, true], moves := [.poll],
    raw := #v[some #v[false, false, false], some #v[false, false, false], some #v[false, false, false], none] }

theorem settling_inv : Inv settling where
  sequencer := by constructor <;> decide
  scanner := ⟨by decide, by decide⟩
  pipeline :=
    { deb_written := by decide
      layer_written := by decide
      modifier_written := by decide
      slots_written := by decide
      slots_shape := fun sl h => by cases h
      rep_written := by decide }
  timer := by constructor <;> decide

/-- For both clauses: the line is asserted before the step and after it. -/
theorem test_witness_OneColumn :
    Inv settling ∧ settling.col[3]? = some true ∧ ∃ t, step settling = .next t ∧ t.col[3]? = some true :=
  ⟨settling_inv, rfl, _, rfl, rfl⟩

/-! ### Witnesses: the pseudo-operations -/

/-- V9's samples, from reset. -/
theorem test_witness_Scan :
    let m := asserted [(0, 1), (1, 0)]
    let s := State.reset.withEnv (List.replicate 25 .poll) m.toList []
    pollAt .sAssert s ∧ s.seqC = 0 ∧ s.col = Vector.replicate s.cfg.val.ncols false ∧
    s.raw = Vector.replicate s.cfg.val.ncols none ∧
    s.moves = List.replicate (6 * s.cfg.val.ncols + 1) .poll ++ [] ∧ s.rowsIn = m.toList ++ [] :=
  ⟨⟨rfl, rfl, rfl⟩, rfl, rfl, rfl, rfl, rfl⟩

/-- EX at the start of the encoder's walk, with its moves. -/
abbrev encoding (ps : List Cell) (l : Layer) : State :=
  { placed .lEncInit with
    seqBoot := false, seqC := 4, deb := some (asserted ps), layer := some l, moves := List.replicate 14 .poll }

/-- E17. -/
theorem test_witness_Encode :
    let ps := (List.range 12).map (cellOf exCfg)
    let s := encoding ps .fn
    pollAt .lEncInit s ∧ s.deb = some (asserted ps) ∧ s.layer = some .fn ∧
    s.moves = List.replicate (cellCount s.cfg.val + 2) .poll ++ [] :=
  ⟨⟨rfl, rfl, rfl⟩, rfl, rfl, rfl⟩

/-- E5 with the modifiers of E9: exactly six normal keys. -/
theorem test_witness_SixKeys :
    let m := asserted [(0, 1), (0, 2), (1, 0), (1, 1), (1, 2), (2, 0), (2, 1), (2, 2)]
    let s := encoding [(0, 1), (0, 2), (1, 0), (1, 1), (1, 2), (2, 0), (2, 1), (2, 2)] .normal
    (pollAt .lEncInit s ∧ s.deb = some m ∧ s.layer = some .normal ∧
      s.moves = List.replicate (cellCount s.cfg.val + 2) .poll ++ []) ∧
    (∀ k ∈ pressedKeys s.cfg.val .normal m, classOf s.cfg.val k ≠ .sentinel) ∧
    (normalKeys s.cfg.val .normal m).length = 6 :=
  ⟨⟨⟨rfl, rfl, rfl⟩, rfl, rfl, rfl⟩, by decide +kernel, by decide +kernel⟩

/-- E7: exactly seven normal keys and a modifier. -/
theorem test_witness_SevenKeys :
    let m := asserted [(1, 0), (1, 1), (1, 2), (2, 0), (2, 1), (2, 2), (3, 0), (3, 2)]
    let s := encoding [(1, 0), (1, 1), (1, 2), (2, 0), (2, 1), (2, 2), (3, 0), (3, 2)] .normal
    (pollAt .lEncInit s ∧ s.deb = some m ∧ s.layer = some .normal ∧
      s.moves = List.replicate (cellCount s.cfg.val + 2) .poll ++ []) ∧
    (∀ k ∈ pressedKeys s.cfg.val .normal m, classOf s.cfg.val k = .sentinel → k = s.cfg.val.kcRollover) ∧
    (normalKeys s.cfg.val .normal m).length = 7 :=
  ⟨⟨⟨rfl, rfl, rfl⟩, rfl, rfl, rfl⟩, by decide +kernel, by decide +kernel⟩

/-- A changed report with a hard failure, and an unchanged one. -/
theorem test_witness_Transfer :
    (let s := { pushing with
       seqPc := .lCsEnter, seqBoot := false, pushIn := [.hard .invalidState], moves := List.replicate 5 .poll }
     pollAt .lCsEnter s ∧ s.seqBoot = false ∧ s.rep = some 0x040000 ∧ s.pushIn = .hard .invalidState :: [] ∧
     s.moves = List.replicate 5 .poll ++ []) ∧
    (let s := { placed .lCsEnter with
       rep := some 0, seqBoot := false, pushIn := [.ok], moves := List.replicate 5 .poll }
     pollAt .lCsEnter s ∧ s.seqBoot = false ∧ s.rep = some s.lastSent ∧ s.pushIn = .ok :: [] ∧
     s.moves = List.replicate 5 .poll ++ []) :=
  ⟨⟨⟨rfl, rfl, rfl⟩, rfl, rfl, rfl, rfl⟩, ⟨rfl, rfl, rfl⟩, rfl, rfl, rfl, rfl⟩

/-- Program P1's sample ends at the bootloader, program P2's first one does not. -/
theorem test_witness_Startup :
    arrayAt (dbfAnswer exWfCfg.val exWfCfg.val.dbf.dbs0 (asserted [(0, 0)])).2 exWfCfg.val.bootPos = some true ∧
    arrayAt (dbfAnswer exWfCfg.val exWfCfg.val.dbf.dbs0 (asserted [])).2 exWfCfg.val.bootPos = some false := ⟨rfl, rfl⟩

theorem test_witness_HeldBootKey :
    DbfFirstPass exWfCfg.val ∧ arrayAt (asserted [(0, 0)]) exWfCfg.val.bootPos = some true := ⟨fun _ => rfl, rfl⟩

theorem test_witness_Cycle :
    Inv waiting ∧ pollAt .lWait waiting ∧ waiting.tmrExpired = true ∧
    pollsNext (cycleOps waiting.cfg.val).length waiting :=
  ⟨waiting_inv, ⟨rfl, rfl, rfl⟩, rfl, [], rfl⟩

/-- EX at the last label of the critical section, an interrupt raised next and proposed from then on. -/
abbrev exiting : State :=
  { State.reset with
    seqPc := .lCsExit, seqBoot := false, seqC := 4, deb := some (asserted []), tmrArmed := true, tmrExpired := true,
    mask := true, moves := [.raiseIrq, .irqEnter, .irqEnter] }

/-- EX at the first label of the critical section. -/
abbrev committing : State :=
  { exiting with seqPc := .lCommit, rep := some 0, moves := [.raiseIrq, .irqEnter, .irqEnter, .irqEnter, .irqEnter] }

theorem exiting_inv (b : Bool) : Inv { exiting with irqPending := b } where
  sequencer := by cases b <;> constructor <;> decide
  scanner := by cases b <;> exact ⟨by decide, by decide⟩
  pipeline :=
    { deb_written := fun _ h => by cases h
      layer_written := fun h => absurd h (by cases b <;> decide)
      modifier_written := fun h => absurd h (by cases b <;> decide)
      slots_written := fun h => absurd h (by cases b <;> decide)
      slots_shape := fun sl h => by cases h
      rep_written := fun h => absurd h (by cases b <;> decide) }
  timer := by cases b <;> constructor <;> decide

theorem committing_inv : Inv committing where
  sequencer := by constructor <;> decide
  scanner := ⟨by decide, by decide⟩
  pipeline :=
    { deb_written := by decide
      layer_written := by decide
      modifier_written := by decide
      slots_written := by decide
      slots_shape := fun sl h => by cases h
      rep_written := by decide }
  timer := by constructor <;> decide

/-- A step inside the section with the interrupt pending; raised at the section's last label and at its first. -/
theorem test_witness_MaskedInterrupt :
    (Inv { exiting with irqPending := true } ∧ ∃ t, step { exiting with irqPending := true } = .next t) ∧
    (Inv exiting ∧ exiting.seqPc ∈ criticalLabels ∧
      exiting.moves = .raiseIrq :: (List.replicate (stepsToUnmask exiting.seqPc) .irqEnter ++ .irqEnter :: [])) ∧
    (Inv committing ∧ committing.seqPc ∈ criticalLabels ∧
      committing.moves = .raiseIrq :: (List.replicate (stepsToUnmask committing.seqPc) .irqEnter ++ .irqEnter :: [])) :=
  ⟨⟨exiting_inv true, _, rfl⟩, ⟨exiting_inv false, by decide, rfl⟩, committing_inv, by decide, rfl⟩

/-- The closed switches of 95 V3, at the last column and the last row. -/
theorem test_witness_IdealSamples :
    let closed := fun c r => decide ((c, r) ∈ [(3, 0), (3, 2)])
    let s := { placed .sSample with seqC := 3, rowsIn := [#v[true, false, true]], moves := [.poll] }
    EnvIdeal closed s ∧ s.seqPc = .sSample ∧ nextMove s = .poll ∧ 2 < s.cfg.val.nrows ∧ ∃ t, step s = .next t :=
  ⟨fun _ _ _ => by decide, rfl, rfl, by decide, _, rfl⟩

end Sys2Proof.Tests
end

section
/-!
PROOFS. The records that the moves issue and what the decoder reads from them: the record of a micro-operation, of a form of
TMR_ARM, ENC_CELL and PUSH, and of a host request (30 R96 to R98, R103).
-/

namespace Sys2Proof

/-! ### Byte 0 of a record -/

theorem opByte_high (u : Uop) : (opByte u).extractLsb' 5 3 = 0 := by cases u <;> decide

theorem opByte_low (u : Uop) : (opByte u).extractLsb' 0 5 = u.code := by cases u <;> decide

/-- The codes of the operation maps are read back (30 R97, R98). -/
@[simp] theorem ofCode_code (u : Uop) : Uop.ofCode u.code = some u := by cases u <;> rfl

/-- The decoder reads the operation of a record and goes on with its operand bytes. -/
@[simp] theorem decode_record (u : Uop) (sel arg id : Byte) (payload : List Byte) :
    decode (record u sel arg id payload) = decodeOperands u sel arg id payload := by
  simp only [decode, record, opByte_high, opByte_low, ofCode_code, if_true]

/-! ### The forms that selectors and arguments pick -/

/-- The form of `TMR_ARM` at a value of SEQ.boot (30 R97). -/
def tmrArmForm (boot : Bool) : Instr := if boot then .tmrArmFirst else .tmrArmPeriod

theorem decode_tmrArm (boot : Bool) :
    decode (record .tmrArm (tmrSelector boot) 0 0 []) = .ok (tmrArmForm boot) := by cases boot <;> rfl

/-- The form of `PUSH` that a result picks for a changed report (45 R207). -/
def PushRes.form (res : PushRes) : Instr :=
  match res with
  | .ok => .pushOk
  | .wouldBlock => .pushWouldBlock
  | .hard kind => .pushHard kind

@[simp] theorem ofCode_pushCode (res : PushRes) : PushRes.ofCode res.code = some res := by
  cases res with
  | ok => rfl
  | wouldBlock => rfl
  | hard kind => cases kind <;> rfl

theorem decode_pushChanged (res : PushRes) :
    decode (record .push (pushSelector true) res.code 0 []) = .ok res.form := by
  have hsel : (pushSelector true).toNat = 1 := rfl
  cases res <;> simp [decodeOperands, decodePush, hsel, PushRes.form]

theorem decode_pushUnchanged : decode (record .push (pushSelector false) 0 0 []) = .ok .pushSuppress := rfl

/-- The two bytes of a report type are read back (log 8). -/
@[simp] theorem ofTag_tag (type : RType) : RType.ofTag type.tag.1 type.tag.2 = .ok type := by cases type <;> rfl

/-- The instruction a host request is a form of (30 R98, R103). -/
def Request.form (r : Request) : Instr :=
  match r with
  | .getReport type id => classifyGet type id
  | .setReport type id payload => classifySet type id payload
  | .getDescriptor => .getDescriptor

theorem decode_encodeRequest (r : Request) : decode (encodeRequest r) = .ok r.form := by
  cases r with
  | getReport type id => simp [encodeRequest, decodeOperands, Request.form]
  | setReport type id payload => simp [encodeRequest, decodeOperands, Request.form]
  | getDescriptor => rfl

/-- A `get_report` is of type Input, or is rejected (44 R181, R182). -/
theorem classifyGet_cases (type : RType) (id : Byte) :
    (type = .input ∧ classifyGet type id = .getReportInput id) ∨
    (type ≠ .input ∧ classifyGet type id = .getReportUnsup type id) := by
  by_cases h : type = .input <;> simp [classifyGet, h]

/-- A `set_report` is the one accepted combination, or is rejected (44 R183, R185). -/
theorem classifySet_cases (type : RType) (id : Byte) (payload : List Byte) :
    (∃ b, type = .output ∧ id = 0 ∧ payload = [b] ∧ classifySet type id payload = .setReportLed b) ∨
    (setReportAccepted type id payload = false ∧
      classifySet type id payload = .setReportUnsup type id payload) := by
  unfold classifySet
  split
  · next b =>
    by_cases h : type = .output ∧ id = 0
    · exact .inl ⟨b, h.1, h.2, rfl, if_pos h⟩
    · exact .inr ⟨by simpa [setReportAccepted] using h, if_neg h⟩
  · next hp =>
    have hl : payload.length ≠ 1 := fun hl => by
      obtain ⟨b, rfl⟩ := List.length_eq_one_iff.1 hl
      exact hp b rfl
    exact .inr ⟨by simp [setReportAccepted, hl], rfl⟩

end Sys2Proof

namespace Sys2Proof.Machine

/-- The instruction a sub-form of ENC_CELL stands for (30 R97). -/
def EncForm.instr (f : EncForm) : Instr :=
  match f with
  | .skip => .encCellSkip
  | .empty => .encCellEmpty
  | .modifier _ => .encCellMod
  | .sentinel _ => .encCellSent
  | .key _ _ => .encCellKey
  | .overflow => .encCellOvf

theorem decode_encCell (f : EncForm) : decode (record .encCell f.selector 0 0 []) = .ok f.instr := by
  cases f <;> rfl

end Sys2Proof.Machine
end

section
/-!
PROOFS. The converse of exec_next_result: what ExecResult names is what exec answers, so an instruction completes exactly where
its guards hold and the registers it reads are written.
-/

namespace Sys2Proof.Machine

/-- A meaning whose guards hold and whose reads are written answers the state ExecResult names. -/
theorem exec_of_result {i : Instr} {s t : State} (h : ExecResult i s t) : exec i s = .next t := by
  cases i <;>
    simp only [ExecResult, pollAt, inHandlerNow] at h <;>
    simp only [exec, execColAssert, execSettle, execRowSample, execColDeassert, execColNext, execDbfPump, execBootCheck,
      execBootEnter, execTmrArmFirst, execTmrArmPeriod, execTmrWait, execLayerSel, execEncInit, execEncCellSkip,
      execEncCellEmpty, execEncCellMod, execEncCellSent, execEncCellKey, execEncCellOvf, execEncDone, execCsEnter,
      execCommit, execPushSuppress, execPushOk, execPushWouldBlock, execPushHard, execCsExit, execIrqEnter, execIrqExit,
      execGetReportInput, execGetReportUnsup, execSetReportLed, execSetReportUnsup, execGetDescriptor,
      issuedAt_next_iff, encCell_next_iff, inHandler_next_iff, selected_next_iff, writeColumn_next_iff,
      pushChanged_next_iff, List.mem_cons, List.not_mem_nil, or_false, Host.Outcome.next.injEq]
  case colAssert => obtain ⟨⟨h1, h2, h3⟩, h4, rfl⟩ := h; exact ⟨h1, h2, h3, h4, rfl⟩
  case colDeassert => obtain ⟨⟨h1, h2, h3⟩, h4, rfl⟩ := h; exact ⟨h1, h2, h3, h4, rfl⟩
  case settle =>
    obtain ⟨⟨h1, h2, h3⟩, rfl⟩ | ⟨⟨h1, h2, h3⟩, rfl⟩ := h
    · exact ⟨h1, h2, .inl h3, by simp [h3]⟩
    · exact ⟨h1, h2, .inr h3, by simp [h3]⟩
  case rowSample => obtain ⟨⟨h1, h2, h3⟩, h4, rfl⟩ := h; exact ⟨h1, h2, h3, if_pos h4⟩
  case dbfPump =>
    obtain ⟨⟨h1, h2, h3⟩, m, hm, rfl⟩ := h
    exact ⟨h1, h2, h3, by rw [(wholeRaw_eq_some _ _).2 hm]; rfl⟩
  case bootCheck => obtain ⟨⟨h1, h2, h3⟩, b, hb, rfl⟩ := h; exact ⟨h1, h2, h3, by rw [hb]⟩
  case layerSel => obtain ⟨⟨h1, h2, h3⟩, b, hb, rfl⟩ := h; exact ⟨h1, h2, h3, by rw [hb]; rfl⟩
  case tmrArmFirst => obtain ⟨⟨h1, h2, h3⟩ | ⟨h1, h2, h3⟩, hb, rfl⟩ := h <;> exact ⟨h1, h2, by simp [h3], hb, rfl⟩
  case tmrArmPeriod =>
    obtain ⟨⟨h1, h2, h3⟩ | ⟨h1, h2, h3⟩, hb, rfl⟩ := h <;> exact ⟨h1, h2, by simp [h3], by simp [hb], rfl⟩
  case tmrWait =>
    obtain ⟨⟨h1, h2, h3⟩, ⟨he, rfl⟩ | ⟨he, rfl⟩⟩ := h
    · exact ⟨h1, h2, h3, by simp [he, State.goto]⟩
    · exact ⟨h1, h2, h3, by rw [if_neg (by simp [he]), State.goto, ← h3]⟩
  case encDone =>
    obtain ⟨⟨h1, h2, h3⟩, m, sl, hm, hs, rfl⟩ := h
    exact ⟨h1, h2, h3, by simp only [hm, hs]; rfl⟩
  case commit => obtain ⟨⟨h1, h2, h3⟩, r, hr, rfl⟩ := h; exact ⟨h1, h2, h3, by simp only [hr]; rfl⟩
  case pushSuppress =>
    obtain ⟨⟨h1, h2, h3⟩, hr, rfl⟩ := h
    exact ⟨h1, h2, h3, by simp [hr, selected, changedFrom]⟩
  case encCellSkip => obtain ⟨⟨h1, h2, h3⟩, hf, rfl⟩ := h; exact ⟨h1, h2, h3, _, hf, rfl⟩
  case encCellEmpty => obtain ⟨⟨h1, h2, h3⟩, hf, rfl⟩ := h; exact ⟨h1, h2, h3, _, hf, rfl⟩
  case encCellMod =>
    obtain ⟨⟨h1, h2, h3⟩, mask, m, hf, hm, rfl⟩ := h
    exact ⟨h1, h2, h3, _, hf, by simp only [hm]⟩
  case encCellSent => obtain ⟨⟨h1, h2, h3⟩, kc, hf, rfl⟩ := h; exact ⟨h1, h2, h3, _, hf, rfl⟩
  case encCellKey => obtain ⟨⟨h1, h2, h3⟩, kc, sl, hf, rfl⟩ := h; exact ⟨h1, h2, h3, _, hf, rfl⟩
  case encCellOvf => obtain ⟨⟨h1, h2, h3⟩, hf, rfl⟩ := h; exact ⟨h1, h2, h3, _, hf, rfl⟩
  case pushOk => obtain ⟨⟨h1, h2, h3⟩, hr⟩ := h; exact ⟨h1, h2, h3, hr⟩
  case pushWouldBlock => obtain ⟨⟨h1, h2, h3⟩, hr⟩ := h; exact ⟨h1, h2, h3, hr⟩
  case pushHard => obtain ⟨⟨h1, h2, h3⟩, hr⟩ := h; exact ⟨h1, h2, h3, hr⟩
  case irqEnter => obtain ⟨h1, h2, h3, h4, rfl⟩ := h; exact if_pos ((irqEnabled_iff s).2 ⟨h1, h2, h3, h4⟩)
  case getReportInput => obtain ⟨⟨h1, h2⟩, rfl⟩ := h; exact ⟨h1, h2, rfl⟩
  case getReportUnsup => obtain ⟨⟨h1, h2⟩, ht, rfl⟩ := h; exact ⟨h1, h2, by simp [ht], rfl⟩
  case setReportLed => obtain ⟨⟨h1, h2⟩, rfl⟩ := h; exact ⟨h1, h2, rfl⟩
  case setReportUnsup => obtain ⟨⟨h1, h2⟩, ht, rfl⟩ := h; exact ⟨h1, h2, by simp [ht], rfl⟩
  case getDescriptor => obtain ⟨⟨h1, h2⟩, rfl⟩ := h; exact ⟨h1, h2, rfl⟩
  case irqExit => obtain ⟨⟨h1, h2⟩, rfl⟩ := h; exact ⟨h1, h2, rfl⟩
  all_goals obtain ⟨⟨h1, h2, h3⟩, rfl⟩ := h; exact ⟨h1, h2, h3, rfl⟩

/-- An instruction completes exactly in the way ExecResult names. -/
theorem exec_next_iff (i : Instr) (s t : State) : exec i s = .next t ↔ ExecResult i s t :=
  ⟨exec_next_result, exec_of_result⟩

end Sys2Proof.Machine
end

section
/-!
PROOFS. What a move issues and that it completes: the step as exec of the decoded instruction (00_scope R9, 45 R200), and
progress under the invariant (00_scope R13, 10_state R47, 20_memory R70).
-/

namespace Sys2Proof.Machine

/-! ### What a move issues -/

/-- The record that move `m` issues in `s` decodes to `i`. -/
def Issues (m : Move) (s : State) (i : Instr) : Prop := ∃ bytes, fetchMove m s = .ok bytes ∧ decode bytes = .ok i

/-- A move that issues an instruction runs it. -/
theorem takeMove_of_issues {run : Instr → State → Out} {m : Move} {s : State} {i : Instr} (hirq : m ≠ .raiseIrq)
    (htick : m ≠ .tick) (h : Issues m s i) : takeMove run m s = run i s := by
  obtain ⟨bytes, hf, hd⟩ := h
  cases m with
  | raiseIrq => exact absurd rfl hirq
  | tick => exact absurd rfl htick
  | poll => simp only [takeMove, hf, hd]
  | irqEnter => simp only [takeMove, hf, hd]
  | irqExit => simp only [takeMove, hf, hd]
  | request r => simp only [takeMove, hf, hd]

theorem issues_poll {s : State} {l : Label} {bytes : List Byte} {i : Instr} (hl : s.seqPc = l)
    (hr : issueRecord (microprogram l) s = .ok bytes) (hd : decode bytes = .ok i) : Issues .poll s i :=
  ⟨bytes, by rw [fetchMove, hl, hr], hd⟩

theorem issues_irqEnter (s : State) : Issues .irqEnter s .irqEnter := ⟨_, rfl, rfl⟩

theorem issues_irqExit (s : State) : Issues .irqExit s .irqExit := ⟨_, rfl, rfl⟩

theorem issues_request (r : Request) (s : State) : Issues (.request r) s r.form := ⟨_, rfl, decode_encodeRequest r⟩

theorem issues_tmrArm {s : State} (hl : s.seqPc = .bArm ∨ s.seqPc = .lRearm) : Issues .poll s (tmrArmForm s.seqBoot) := by
  obtain hl | hl := hl <;> exact issues_poll hl rfl (decode_tmrArm _)

theorem issues_encCell {s : State} {f : EncForm} (hl : s.seqPc = .lEncCell) (hf : encForm s = .ok f) :
    Issues .poll s f.instr :=
  issues_poll hl (by simp only [microprogram, issueRecord, hf]) (decode_encCell f)

theorem issues_pushChanged {s : State} {r : Report} (hl : s.seqPc = .lPush) (hr : s.rep = some r) (hc : r ≠ s.lastSent) :
    Issues .poll s (pushAnswer s).form :=
  issues_poll hl (by simp only [microprogram, issueRecord, hr, (changedFrom_iff r s).2 hc, if_true])
    (decode_pushChanged _)

theorem issues_pushUnchanged {s : State} (hl : s.seqPc = .lPush) (hr : s.rep = some s.lastSent) :
    Issues .poll s .pushSuppress :=
  issues_poll hl (by simp [microprogram, issueRecord, hr, changedFrom]) decode_pushUnchanged

/-! ### Registers that are written can be read -/

theorem readDeb_of_written {w : WfCfg} {deb : Option (MatrixOf w)} (hd : deb ≠ none) (p : Cell) (h) :
    ∃ b, readDeb deb p h = .ok b := by
  obtain ⟨m, rfl⟩ := Option.ne_none_iff_exists'.1 hd
  exact ⟨_, rfl⟩

/-- The key code of an asserted cell selects a form where SLOT is written. -/
theorem encFormOfKey_of_written (c : Cfg) {slots : Option Slots} (hs : slots ≠ none) (kc : Byte) :
    ∃ f, encFormOfKey c slots kc = .ok f := by
  obtain ⟨sl, rfl⟩ := Option.ne_none_iff_exists'.1 hs
  unfold encFormOfKey
  cases classOf c kc with
  | empty => exact ⟨_, rfl⟩
  | modifier mask => exact ⟨_, rfl⟩
  | sentinel => exact ⟨_, rfl⟩
  | normal => cases hfull : slotsFull sl <;> exact ⟨_, by simp only [hfull]; rfl⟩

/-- A form of ENC_CELL is selected at every cell of the matrix where DEB, LAYER and SLOT are written (43 R161). -/
theorem encForm_of_written {s : State} (hd : s.deb ≠ none) (hl : s.layer ≠ none) (hs : s.slots ≠ none)
    (hk : s.seqK < cellCount s.cfg.val) : ∃ f, encForm s = .ok f := by
  obtain ⟨m, hm⟩ := Option.ne_none_iff_exists'.1 hd
  obtain ⟨l, hl⟩ := Option.ne_none_iff_exists'.1 hl
  have hin := cellOf_inside s.cfg hk
  cases hc : cellAt m (cellOf s.cfg.val s.seqK) hin with
  | false => exact ⟨.skip, encForm_of_open hm ((arrayAt_eq_some _ _ _).2 ⟨hin, hc⟩)⟩
  | true =>
    rw [encForm_of_key hm ((arrayAt_eq_some _ _ _).2 ⟨hin, hc⟩) hl (arrayAt_of_inside _ hin)]
    exact encFormOfKey_of_written _ hs _

/-! ### The forms complete -/

theorem exec_tmrArmForm {s : State} (h : pollAt .bArm s ∨ pollAt .lRearm s) :
    ∃ t, exec (tmrArmForm s.seqBoot) s = .next t := by
  cases hb : s.seqBoot with
  | true => exact ⟨_, exec_of_result (i := .tmrArmFirst) ⟨h, hb, rfl⟩⟩
  | false => exact ⟨_, exec_of_result (i := .tmrArmPeriod) ⟨h, hb, rfl⟩⟩

/-- The form the state selects completes where MOD is written. -/
theorem exec_encForm {s : State} {f : EncForm} (h : pollAt .lEncCell s) (hf : encForm s = .ok f)
    (hm : s.modifier ≠ none) : ∃ t, exec f.instr s = .next t := by
  obtain ⟨m, hm⟩ := Option.ne_none_iff_exists'.1 hm
  cases f with
  | skip => exact ⟨_, exec_of_result (i := .encCellSkip) ⟨h, hf, rfl⟩⟩
  | empty => exact ⟨_, exec_of_result (i := .encCellEmpty) ⟨h, hf, rfl⟩⟩
  | modifier mask => exact ⟨_, exec_of_result (i := .encCellMod) ⟨h, mask, m, hf, hm, rfl⟩⟩
  | sentinel kc => exact ⟨_, exec_of_result (i := .encCellSent) ⟨h, kc, hf, rfl⟩⟩
  | key kc sl => exact ⟨_, exec_of_result (i := .encCellKey) ⟨h, kc, sl, hf, rfl⟩⟩
  | overflow => exact ⟨_, exec_of_result (i := .encCellOvf) ⟨h, hf, rfl⟩⟩

/-- The form of PUSH for any drawn result completes on a changed report. -/
theorem exec_pushForm {s : State} {r : Report} (h : pollAt .lPush s) (hr : s.rep = some r) (hc : r ≠ s.lastSent)
    (res : PushRes) : ∃ t, exec res.form s = .next t := by
  cases res with
  | ok => exact ⟨_, exec_of_result (i := .pushOk) ⟨h, r, hr, hc, rfl⟩⟩
  | wouldBlock => exact ⟨_, exec_of_result (i := .pushWouldBlock) ⟨h, r, hr, hc, rfl⟩⟩
  | hard kind => exact ⟨_, exec_of_result (i := .pushHard kind) ⟨h, r, hr, hc, rfl⟩⟩

/-- Every host request completes inside a handler (44 R180). -/
theorem exec_requestForm {s : State} (h : inHandlerNow s) (r : Request) : ∃ t, exec r.form s = .next t := by
  cases r with
  | getReport type id =>
    obtain ⟨-, hform⟩ | ⟨ht, hform⟩ := classifyGet_cases type id <;> rw [Request.form, hform]
    · exact ⟨_, exec_of_result (i := .getReportInput id) ⟨h, rfl⟩⟩
    · exact ⟨_, exec_of_result (i := .getReportUnsup type id) ⟨h, ht, rfl⟩⟩
  | setReport type id payload =>
    obtain ⟨b, -, -, -, hform⟩ | ⟨hrej, hform⟩ := classifySet_cases type id payload <;> rw [Request.form, hform]
    · exact ⟨_, exec_of_result (i := .setReportLed b) ⟨h, rfl⟩⟩
    · exact ⟨_, exec_of_result (i := .setReportUnsup type id payload) ⟨h, hrej, rfl⟩⟩
  | getDescriptor => exact ⟨_, exec_of_result (i := .getDescriptor) ⟨h, rfl⟩⟩

/-! ### What the invariant gives each label -/

/-- The invariant does not speak of the scripted moves. -/
theorem inv_useMove {s : State} (h : Inv s) : Inv s.useMove where
  sequencer := { h.sequencer with }
  scanner := { h.scanner with }
  pipeline := { h.pipeline with }
  timer := { h.timer with }

theorem seqC_lt_of_inv {s : State} (h : Inv s) (hl : s.seqPc ∈ columnLabels) : s.seqC < s.cfg.val.ncols := by
  simpa only [if_pos hl] using h.sequencer.column_range

theorem seqK_lt_of_inv {s : State} (h : Inv s) (hl : s.seqPc = .lEncCell) : s.seqK < cellCount s.cfg.val := by
  simpa only [if_pos hl] using h.sequencer.cell_range

/-- The pump finds every column of RAW written (40 R130, 70 R269). -/
theorem raw_written_at_pump {s : State} (h : Inv s) (hl : s.seqPc = .sPump) : ∃ m : MatrixOf s.cfg, s.raw = m.map some := by
  have hcols : columnsSampled s = s.cfg.val.ncols := by simp [columnsSampled, hl]
  have hall : none ∉ s.raw := fun hmem => by
    obtain ⟨c, hc, hnone⟩ := Vector.mem_iff_getElem.1 hmem
    exact (h.scanner.sampled c hc).2 (hcols ▸ hc) hnone
  have hraw : wholeRaw s.raw ≠ none := fun e => hall ((wholeRaw_eq_none _).1 e)
  obtain ⟨m, hm⟩ := Option.ne_none_iff_exists'.1 hraw
  exact ⟨m, (wholeRaw_eq_some _ _).1 hm⟩

theorem deb_written_of_inv {s : State} {l : Label} (h : Inv s) (hl : s.seqPc = l) (hscan : l ∉ scanLabels) : s.deb ≠ none :=
  h.pipeline.deb_written (hl ▸ hscan)

/-! ### Progress -/

/-- Under the invariant the poll context issues, at each label, an instruction that completes. -/
theorem poll_issues_completing {s : State} (h : Inv s) (hirq : s.inIrq = false) (hb : s.booted = false) :
    ∃ i t, Issues .poll s i ∧ exec i s = .next t := by
  have at_label {l : Label} (hl : s.seqPc = l) : pollAt l s := ⟨hirq, hb, hl⟩
  cases hl : s.seqPc with
  | sAssert =>
    have hc := seqC_lt_of_inv h (by simp [hl, columnLabels])
    exact ⟨.colAssert, _, issues_poll hl rfl rfl, exec_of_result ⟨at_label hl, hc, rfl⟩⟩
  | sSettle1 => exact ⟨.settle, _, issues_poll hl rfl rfl, exec_of_result (.inl ⟨at_label hl, rfl⟩)⟩
  | sSample =>
    have hc := seqC_lt_of_inv h (by simp [hl, columnLabels])
    exact ⟨.rowSample, _, issues_poll hl rfl rfl, exec_of_result ⟨at_label hl, hc, rfl⟩⟩
  | sDeassert =>
    have hc := seqC_lt_of_inv h (by simp [hl, columnLabels])
    exact ⟨.colDeassert, _, issues_poll hl rfl rfl, exec_of_result ⟨at_label hl, hc, rfl⟩⟩
  | sSettle2 => exact ⟨.settle, _, issues_poll hl rfl rfl, exec_of_result (.inr ⟨at_label hl, rfl⟩)⟩
  | sNext => exact ⟨.colNext, _, issues_poll hl rfl rfl, exec_of_result ⟨at_label hl, rfl⟩⟩
  | sPump =>
    obtain ⟨m, hm⟩ := raw_written_at_pump h hl
    exact ⟨.dbfPump, _, issues_poll hl rfl rfl, exec_of_result ⟨at_label hl, m, hm, rfl⟩⟩
  | bCheck =>
    obtain ⟨b, hr⟩ := readDeb_of_written (deb_written_of_inv h hl (by decide)) _ (bootPos_inside s.cfg)
    exact ⟨.bootCheck, _, issues_poll hl rfl rfl, exec_of_result ⟨at_label hl, b, hr, rfl⟩⟩
  | bEnter => exact ⟨.bootEnter, _, issues_poll hl rfl rfl, exec_of_result ⟨at_label hl, rfl⟩⟩
  | bArm =>
    obtain ⟨t, ht⟩ := exec_tmrArmForm (.inl (at_label hl))
    exact ⟨_, t, issues_tmrArm (.inl hl), ht⟩
  | lWait =>
    cases he : s.tmrExpired with
    | true => exact ⟨.tmrWait, _, issues_poll hl rfl rfl, exec_of_result ⟨at_label hl, .inl ⟨he, rfl⟩⟩⟩
    | false => exact ⟨.tmrWait, _, issues_poll hl rfl rfl, exec_of_result ⟨at_label hl, .inr ⟨he, rfl⟩⟩⟩
  | lLayer =>
    obtain ⟨b, hr⟩ := readDeb_of_written (deb_written_of_inv h hl (by decide)) _ (fnPos_inside s.cfg)
    exact ⟨.layerSel, _, issues_poll hl rfl rfl, exec_of_result ⟨at_label hl, b, hr, rfl⟩⟩
  | lEncInit => exact ⟨.encInit, _, issues_poll hl rfl rfl, exec_of_result ⟨at_label hl, rfl⟩⟩
  | lEncCell =>
    obtain ⟨f, hf⟩ := encForm_of_written (deb_written_of_inv h hl (by decide)) (h.pipeline.layer_written (by simp [hl]))
      (h.pipeline.slots_written (by simp [hl])) (seqK_lt_of_inv h hl)
    obtain ⟨t, ht⟩ := exec_encForm (at_label hl) hf (h.pipeline.modifier_written (by simp [hl]))
    exact ⟨_, t, issues_encCell hl hf, ht⟩
  | lEncDone =>
    obtain ⟨m, hm⟩ := Option.ne_none_iff_exists'.1 (h.pipeline.modifier_written (by simp [hl]))
    obtain ⟨sl, hs⟩ := Option.ne_none_iff_exists'.1 (h.pipeline.slots_written (by simp [hl]))
    exact ⟨.encDone, _, issues_poll hl rfl rfl, exec_of_result ⟨at_label hl, m, sl, hm, hs, rfl⟩⟩
  | lCsEnter => exact ⟨.csEnter, _, issues_poll hl rfl rfl, exec_of_result ⟨at_label hl, rfl⟩⟩
  | lCommit =>
    obtain ⟨r, hr⟩ := Option.ne_none_iff_exists'.1 (h.pipeline.rep_written (by simp [hl]))
    exact ⟨.commit, _, issues_poll hl rfl rfl, exec_of_result ⟨at_label hl, r, hr, rfl⟩⟩
  | lPush =>
    obtain ⟨r, hr⟩ := Option.ne_none_iff_exists'.1 (h.pipeline.rep_written (by simp [hl]))
    by_cases hc : r = s.lastSent
    · subst hc
      exact ⟨.pushSuppress, _, issues_pushUnchanged hl hr, exec_of_result ⟨at_label hl, hr, rfl⟩⟩
    · obtain ⟨t, ht⟩ := exec_pushForm (at_label hl) hr hc (pushAnswer s)
      exact ⟨_, t, issues_pushChanged hl hr hc, ht⟩
  | lCsExit => exact ⟨.csExit, _, issues_poll hl rfl rfl, exec_of_result ⟨at_label hl, rfl⟩⟩
  | lRearm =>
    obtain ⟨t, ht⟩ := exec_tmrArmForm (.inr (at_label hl))
    exact ⟨_, t, issues_tmrArm (.inr hl), ht⟩

/-- Under the invariant every enabled move of every agent completes. -/
theorem enabled_move_completes {s : State} {m : Move} (h : Inv s) (he : moveEnabled s m = true) :
    ∃ t, takeMove exec m s = .next t := by
  cases m with
  | poll =>
    obtain ⟨hirq, hb⟩ := (pollEnabled_iff s).1 he
    obtain ⟨i, t, hi, ht⟩ := poll_issues_completing h hirq hb
    exact ⟨t, by rw [takeMove_of_issues (by simp) (by simp) hi, ht]⟩
  | irqEnter =>
    obtain ⟨hp, hmask, hirq, hb⟩ := (irqEnabled_iff s).1 he
    rw [takeMove_of_issues (by simp) (by simp) (issues_irqEnter s)]
    exact ⟨_, exec_of_result ⟨hp, hmask, hirq, hb, rfl⟩⟩
  | irqExit =>
    rw [takeMove_of_issues (by simp) (by simp) (issues_irqExit s)]
    exact ⟨_, exec_of_result ⟨(handlerRuns_iff s).1 he, rfl⟩⟩
  | request r =>
    rw [takeMove_of_issues (by simp) (by simp) (issues_request r s)]
    exact exec_requestForm ((handlerRuns_iff s).1 he) r
  | raiseIrq => exact ⟨_, rfl⟩
  | tick => exact ⟨_, rfl⟩

/-- Whether a move is enabled does not depend on the scripted moves. -/
theorem moveEnabled_useMove (s : State) (m : Move) : moveEnabled s.useMove m = moveEnabled s m := by cases m <;> rfl

end Sys2Proof.Machine

namespace Sys2Proof.Proofs

open Sys2Proof.Machine

/-- Settles O5: the step is the next move, and a move that issues an instruction runs it. -/
theorem stepRunsTheDecodedInstruction : Obligations.StepRunsTheDecodedInstruction := by
  intro s m bytes i hb hm hirq htick hf hd
  rw [step_of_move hb, hm]
  exact takeMove_of_issues hirq htick ⟨bytes, hf, hd⟩

/-- Settles O47: the next move is enabled, and under the invariant every enabled move completes. -/
theorem invariantStatesAlwaysStep : Obligations.InvariantStatesAlwaysStep := by
  intro s h hb
  rw [step_of_move hb]
  exact enabled_move_completes (inv_useMove h) (by rw [moveEnabled_useMove, nextMove_enabled hb])

end Sys2Proof.Proofs
end

section
/-!
PROOFS. Every step keeps the invariant of the block (10_state R21 to R39, R47, 43 R172), one lemma per operation; the column
lines follow from it (70 R271).
-/

namespace Sys2Proof.Machine

/-! ### Moving the sequencer -/

/-- From `l` to `l'` the sequencer crosses no end of the critical section and enters neither the start-up nor the loop. -/
abbrev SamePhase (l l' : Label) : Prop :=
  (l' ∈ criticalLabels ↔ l ∈ criticalLabels) ∧ (l' ∈ bootLabels → l ∈ bootLabels) ∧ (l' ∈ loopLabels → l ∈ loopLabels)

/-- At `l'` SEQ.c and SEQ.k have the ranges they have at `l`. -/
abbrev SameRanges (l l' : Label) : Prop := (l' ∈ columnLabels ↔ l ∈ columnLabels) ∧ l' ≠ .lEncCell

/-- From `l` to `l'` no column line changes. -/
abbrev SameLevels (l l' : Label) : Prop := l' ∈ assertedLabels ↔ l ∈ assertedLabels

/-- From `l` to `l'` no column is sampled and RAW is not handed over. -/
abbrev SameSamples (l l' : Label) : Prop :=
  (l' ∈ [Label.sAssert, .sSettle1, .sSample] ↔ l ∈ [Label.sAssert, .sSettle1, .sSample]) ∧
  (l' ∈ [Label.sDeassert, .sSettle2, .sNext] ↔ l ∈ [Label.sDeassert, .sSettle2, .sNext]) ∧ (l' = .sPump ↔ l = .sPump)

/-- At `l'` nothing is read that is not written at `l` already. -/
abbrev SameReads (l l' : Label) : Prop :=
  (l' ∉ scanLabels → l ∉ scanLabels) ∧ (l' ∈ [Label.lEncInit, .lEncCell] → l ∈ [Label.lEncInit, .lEncCell]) ∧
  (l' ∈ [Label.lEncCell, .lEncDone] → l ∈ [Label.lEncCell, .lEncDone]) ∧
  (l' ∈ [Label.lCsEnter, .lCommit, .lPush] → l ∈ [Label.lCsEnter, .lCommit, .lPush])

theorem seqK_le_of_inv {s : State} (h : Inv s) : s.seqK ≤ cellCount s.cfg.val := by
  have hk := h.sequencer.cell_range
  split at hk <;> omega

/-- The sequencer's position may change within its phase, with SEQ.c and SEQ.k in the ranges of the new label. -/
theorem sequencerInv_move {s : State} {l l' : Label} {c k : Nat} (h : Inv s) (hs : pollAt l s)
    (hp : SamePhase l l') (hc : if l' ∈ columnLabels then c < s.cfg.val.ncols else c = s.cfg.val.ncols)
    (hk : if l' = .lEncCell then k < cellCount s.cfg.val else k ≤ cellCount s.cfg.val) :
    SequencerInv { s with seqPc := l', seqC := c, seqK := k } := by
  obtain ⟨-, hb, rfl⟩ := hs
  obtain ⟨hcrit, hboot, hloop⟩ := hp
  exact
    { column_range := hc
      cell_range := hk
      boot_phase := fun hl => h.sequencer.boot_phase (hboot hl)
      loop_phase := fun hl => h.sequencer.loop_phase (hloop hl)
      mask_critical := h.sequencer.mask_critical.trans hcrit.symm
      handler_unmasked := h.sequencer.handler_unmasked
      booted_at_enter := by simp [hb] }

theorem sequencerInv_goto {s : State} {l l' : Label} (h : Inv s) (hs : pollAt l s) (hp : SamePhase l l')
    (hr : SameRanges l l') : SequencerInv (s.goto l') := by
  obtain ⟨hcol, hcell⟩ := hr
  have ⟨_, _, hpc⟩ := hs
  exact sequencerInv_move h hs hp (by simpa only [hcol, hpc] using h.sequencer.column_range)
    (by simpa only [hcell, if_false] using seqK_le_of_inv h)

theorem columnLevels_goto {s : State} {l : Label} (hl : SameLevels s.seqPc l) : columnLevels (s.goto l) = columnLevels s := by
  simp [columnLevels, hl]

theorem columnsSampled_goto {s : State} {l : Label} (hl : SameSamples s.seqPc l) :
    columnsSampled (s.goto l) = columnsSampled s := by
  obtain ⟨hbefore, hafter, hpump⟩ := hl
  simp only [columnsSampled, goto_seqPc, goto_seqC, goto_cfg, hbefore, hafter, hpump]

theorem scannerInv_goto {s : State} {l l' : Label} (h : ScannerInv s) (hs : pollAt l s) (hlev : SameLevels l l')
    (hsam : SameSamples l l') : ScannerInv (s.goto l') := by
  obtain ⟨-, -, rfl⟩ := hs
  exact ⟨h.levels.trans (columnLevels_goto hlev).symm, by rw [columnsSampled_goto hsam]; exact h.sampled⟩

theorem pipelineInv_goto {s : State} {l l' : Label} (h : PipelineInv s) (hs : pollAt l s) (hr : SameReads l l') :
    PipelineInv (s.goto l') := by
  obtain ⟨-, -, rfl⟩ := hs
  obtain ⟨hdeb, hlayer, henc, hrep⟩ := hr
  exact
    { deb_written := fun hl => h.deb_written (hdeb hl)
      layer_written := fun hl => h.layer_written (hlayer hl)
      modifier_written := fun hl => h.modifier_written (henc hl)
      slots_written := fun hl => h.slots_written (henc hl)
      slots_shape := h.slots_shape
      rep_written := fun hl => h.rep_written (hrep hl) }

/-- Only the wait has a timer that may not have expired (45 R204). -/
theorem timerInv_goto {s : State} {l : Label} (h : TimerInv s) (hs : pollAt l s) (hl : l ≠ .lWait) (l' : Label) :
    TimerInv (s.goto l') := by
  obtain ⟨-, -, rfl⟩ := hs
  exact { h with cycle_expired := fun hb _ => h.cycle_expired hb hl }

/-- From `l` to `l'` nothing changes that the invariant asks of the registers at a label. -/
abbrev SameSide (l l' : Label) : Prop :=
  SameRanges l l' ∧ SameLevels l l' ∧ SameSamples l l' ∧ SameReads l l' ∧ l ≠ .lWait

/-- Such a move of the sequencer keeps the invariant. -/
theorem inv_goto {s : State} {l l' : Label} (h : Inv s) (hs : pollAt l s) (hp : SamePhase l l')
    (hl : SameSide l l') : Inv (s.goto l') := by
  obtain ⟨hrange, hlev, hsam, hread, hwait⟩ := hl
  exact
    { sequencer := sequencerInv_goto h hs hp hrange
      scanner := scannerInv_goto h.scanner hs hlev hsam
      pipeline := pipelineInv_goto h.pipeline hs hread
      timer := timerInv_goto h.timer hs hwait l' }

/-- The invariant does not speak of the reports, LED, IRQ_PENDING and the model's own fields. -/
theorem inv_frame {s : State} (h : Inv s) (lastSent brReport : Report) (led : Leds) (irqPending : Bool)
    (pushIn : List PushRes) (draws : Nat) (events : List Event) (replies : List (Request × Reply)) :
    Inv { s with
      lastSent := lastSent, brReport := brReport, led := led, irqPending := irqPending, pushIn := pushIn, draws := draws,
      events := events, replies := replies } where
  sequencer := { h.sequencer with }
  scanner := { h.scanner with }
  pipeline := { h.pipeline with }
  timer := { h.timer with }

/-- COMMIT and the forms of PUSH move on and write nothing else that the invariant speaks of. -/
theorem inv_frame_goto {s : State} {l l' : Label} (h : Inv s) (hs : pollAt l s) (hp : SamePhase l l') (hl : SameSide l l')
    (lastSent brReport : Report) (pushIn : List PushRes) (draws : Nat) (events : List Event) :
    Inv { s with
      lastSent := lastSent, brReport := brReport, pushIn := pushIn, draws := draws, events := events, seqPc := l' } :=
  inv_frame (inv_goto h hs hp hl) _ _ _ _ _ _ _ _

/-! ### What the operations make of the invariant, one lemma for each -/

/-- COL_ASSERT asserts the line of SEQ.c (40 R122). -/
theorem inv_colAssert {s t : State} (h : Inv s) (hx : ExecResult .colAssert s t) : Inv t := by
  obtain ⟨hs, -, rfl⟩ := hx
  have ⟨_, _, hpc⟩ := hs
  have hlev := h.scanner.levels
  exact
    { sequencer := { sequencerInv_goto (l' := .sSettle1) h hs (by decide) (by decide) with }
      scanner :=
        { levels := by simp [columnLevels, assertedLabels, hlev, hpc]
          sampled := by simpa [columnsSampled, hpc] using h.scanner.sampled }
      pipeline := { pipelineInv_goto (l' := .sSettle1) h.pipeline hs (by decide) with }
      timer := { timerInv_goto h.timer hs (by decide) .sSettle1 with } }

/-- COL_DEASSERT takes the one asserted line back (40 R125). -/
theorem inv_colDeassert {s t : State} (h : Inv s) (hx : ExecResult .colDeassert s t) : Inv t := by
  obtain ⟨hs, -, rfl⟩ := hx
  have ⟨_, _, hpc⟩ := hs
  have hlev := h.scanner.levels
  exact
    { sequencer := { sequencerInv_goto (l' := .sSettle2) h hs (by decide) (by decide) with }
      scanner :=
        { levels := by simp [columnLevels, assertedLabels, hlev, hpc]
          sampled := by simpa [columnsSampled, hpc] using h.scanner.sampled }
      pipeline := { pipelineInv_goto (l' := .sSettle2) h.pipeline hs (by decide) with }
      timer := { timerInv_goto h.timer hs (by decide) .sSettle2 with } }

theorem inv_settle {s t : State} (h : Inv s) (hx : ExecResult .settle s t) : Inv t := by
  obtain ⟨hs, rfl⟩ | ⟨hs, rfl⟩ := hx
  · exact inv_goto h hs (by decide) (by decide)
  · exact inv_goto h hs (by decide) (by decide)

/-- Where the written columns are the first `k`, writing column `k` makes them the first `k + 1`. -/
theorem written_setIfInBounds {α : Type} {n k : Nat} {v : Vector (Option α) n} (x : α)
    (h : ∀ c (hc : c < n), v[c] ≠ none ↔ c < k) (c : Nat) (hc : c < n) :
    (v.setIfInBounds k (some x))[c] ≠ none ↔ c < k + 1 := by
  by_cases hk : k = c
  · simp [hk]
  · rw [Vector.getElem_setIfInBounds_ne _ hk, h]
    omega

/-- ROW_SAMPLE writes column SEQ.c of RAW, the first unwritten one (40 R124). -/
theorem inv_rowSample {s t : State} (h : Inv s) (hx : ExecResult .rowSample s t) : Inv t := by
  obtain ⟨hs, -, rfl⟩ := hx
  have ⟨_, _, hpc⟩ := hs
  have hbefore : columnsSampled s = s.seqC := by simp [columnsSampled, hpc]
  exact
    { sequencer :=
        { sequencerInv_goto (l' := .sDeassert) h hs (by decide) (by decide) with }
      scanner :=
        { levels := h.scanner.levels.trans (columnLevels_goto (l := .sDeassert) (by rw [hpc]; decide)).symm
          sampled := written_setIfInBounds _ (hbefore ▸ h.scanner.sampled) }
      pipeline := { pipelineInv_goto (l' := .sDeassert) h.pipeline hs (by decide) with }
      timer := { timerInv_goto h.timer hs (by decide) .sDeassert with } }

/-- COL_NEXT ends the column SEQ.c; after the last one every column is sampled (40 R127). -/
theorem inv_colNext {s t : State} (h : Inv s) (hx : ExecResult .colNext s t) : Inv t := by
  obtain ⟨hs, rfl⟩ := hx
  have ⟨_, _, hpc⟩ := hs
  have hc := seqC_lt_of_inv h (by simp [hpc, columnLabels])
  have hlev : s.col = Vector.replicate _ false := by
    simpa [columnLevels, assertedLabels, hpc] using h.scanner.levels
  have hsam : ∀ c (hc : c < s.cfg.val.ncols), s.raw[c] ≠ none ↔ c < s.seqC + 1 := by
    simpa [columnsSampled, hpc] using h.scanner.sampled
  by_cases hlast : s.seqC + 1 < s.cfg.val.ncols
  · rw [if_pos hlast]
    exact
      { sequencer :=
          { sequencerInv_move (l' := .sAssert) h hs (by decide) hlast (seqK_le_of_inv h) with }
        scanner := ⟨hlev, hsam⟩
        pipeline := { pipelineInv_goto (l' := .sAssert) h.pipeline hs (by decide) with }
        timer := { timerInv_goto h.timer hs (by decide) .sAssert with } }
  · have hend : s.seqC + 1 = s.cfg.val.ncols := by omega
    rw [if_neg hlast]
    exact
      { sequencer :=
          { sequencerInv_move (l' := .sPump) h hs (by decide) hend (seqK_le_of_inv h) with }
        scanner := ⟨hlev, fun c hc => (hsam c hc).trans (by rw [hend]; rfl)⟩
        pipeline := { pipelineInv_goto (l' := .sPump) h.pipeline hs (by decide) with }
        timer := { timerInv_goto h.timer hs (by decide) .sPump with } }

/-- DBF_PUMP hands RAW over, so that no column is written, and writes DEB (41 R141). -/
theorem inv_dbfPump {s t : State} (h : Inv s) (hx : ExecResult .dbfPump s t) : Inv t := by
  obtain ⟨hs, m, -, rfl⟩ := hx
  have ⟨_, hb, hpc⟩ := hs
  have hlev : SameLevels s.seqPc (if s.seqBoot then .bCheck else .lLayer) := by rw [hpc]; split <;> decide
  exact
    { sequencer :=
        { column_range := by cases s.seqBoot <;> simpa [hpc, columnLabels] using h.sequencer.column_range
          cell_range := by cases s.seqBoot <;> simpa using seqK_le_of_inv h
          boot_phase := by cases s.seqBoot <;> simp [bootLabels]
          loop_phase := by cases s.seqBoot <;> simp [loopLabels]
          mask_critical := by cases s.seqBoot <;> simpa [hpc, criticalLabels] using h.sequencer.mask_critical
          handler_unmasked := h.sequencer.handler_unmasked
          booted_at_enter := by simp [hb] }
      scanner :=
        { levels := h.scanner.levels.trans (columnLevels_goto hlev).symm
          sampled := by cases s.seqBoot <;> simp [columnsSampled, rawUnwritten] }
      pipeline :=
        { deb_written := by simp
          layer_written := by cases s.seqBoot <;> simp
          modifier_written := by cases s.seqBoot <;> simp
          slots_written := by cases s.seqBoot <;> simp
          slots_shape := h.pipeline.slots_shape
          rep_written := by cases s.seqBoot <;> simp }
      timer := { timerInv_goto h.timer hs (by decide) _ with } }

theorem inv_bootCheck {s t : State} (h : Inv s) (hx : ExecResult .bootCheck s t) : Inv t := by
  obtain ⟨hs, b, -, rfl⟩ := hx
  cases b with
  | true => exact inv_goto h hs (by decide) (by decide)
  | false => exact inv_goto h hs (by decide) (by decide)

/-- BOOT_ENTER leaves SEQ.pc where BOOTED stands (45 R203). -/
theorem inv_bootEnter {s t : State} (h : Inv s) (hx : ExecResult .bootEnter s t) : Inv t := by
  obtain ⟨⟨hirq, -, hl⟩, rfl⟩ := hx
  exact
    { sequencer := { h.sequencer with booted_at_enter := fun _ => ⟨hl, hirq⟩ }
      scanner := { h.scanner with }
      pipeline := { h.pipeline with }
      timer := { h.timer with } }

/-- TMR_ARM.FIRST ends the start-up: the loop begins with the timer armed (45 R202). -/
theorem inv_tmrArmFirst {s t : State} (h : Inv s) (hx : ExecResult .tmrArmFirst s t) : Inv t := by
  obtain ⟨hs | ⟨-, -, hl⟩, hboot, rfl⟩ := hx
  · have ⟨_, hb, hpc⟩ := hs
    exact
      { sequencer :=
          { column_range := by simpa [hpc, columnLabels] using h.sequencer.column_range
            cell_range := by simpa using seqK_le_of_inv h
            boot_phase := by simp [bootLabels]
            loop_phase := by simp
            mask_critical := by simpa [hpc, criticalLabels] using h.sequencer.mask_critical
            handler_unmasked := h.sequencer.handler_unmasked
            booted_at_enter := by simp [hb] }
        scanner := { scannerInv_goto (l' := .lWait) h.scanner hs (by decide) (by decide) with }
        pipeline := { pipelineInv_goto (l' := .lWait) h.pipeline hs (by decide) with }
        timer := ⟨by simp, by simp, by simp, by simp⟩ }
  · have hloop := h.sequencer.loop_phase (by simp [hl, loopLabels])
    simp [hboot] at hloop

/-- TMR_ARM.PERIOD goes back to the wait with the flag cleared (45 R213). -/
theorem inv_tmrArmPeriod {s t : State} (h : Inv s) (hx : ExecResult .tmrArmPeriod s t) : Inv t := by
  obtain ⟨⟨-, -, hl⟩ | hs, hboot, rfl⟩ := hx
  · have hstart := h.sequencer.boot_phase (by simp [hl, bootLabels])
    simp [hboot] at hstart
  · exact
      { sequencer := { sequencerInv_goto (l' := .lWait) h hs (by decide) (by decide) with }
        scanner := { scannerInv_goto (l' := .lWait) h.scanner hs (by decide) (by decide) with }
        pipeline := { pipelineInv_goto (l' := .lWait) h.pipeline hs (by decide) with }
        timer := ⟨by simp [hboot], by simp, by simp, by simp⟩ }

/-- TMR_WAIT leaves the wait for the first column of a scan once the flag is set (45 R204). -/
theorem inv_tmrWait {s t : State} (h : Inv s) (hx : ExecResult .tmrWait s t) : Inv t := by
  obtain ⟨hs, ⟨hexp, rfl⟩ | ⟨-, rfl⟩⟩ := hx
  · have ⟨_, _, hpc⟩ := hs
    exact
      { sequencer :=
          { sequencerInv_move (l' := .sAssert) h hs (by decide) (ncols_pos s.cfg) (seqK_le_of_inv h) with }
        scanner :=
          { levels := by simpa [columnLevels, assertedLabels, hpc] using h.scanner.levels
            sampled := by simpa [columnsSampled, hpc] using h.scanner.sampled }
        pipeline := { pipelineInv_goto (l' := .sAssert) h.pipeline hs (by decide) with }
        timer := { h.timer with cycle_expired := fun _ _ => hexp } }
  · exact h

/-! ### The layer and the encoder -/

theorem inv_layerSel {s t : State} (h : Inv s) (hx : ExecResult .layerSel s t) : Inv t := by
  obtain ⟨hs, b, -, rfl⟩ := hx
  have ⟨_, _, hpc⟩ := hs
  have hdeb : s.deb ≠ none := deb_written_of_inv h hpc (by decide)
  exact
    { sequencer := { sequencerInv_goto (l' := .lEncInit) h hs (by decide) (by decide) with }
      scanner := { scannerInv_goto (l' := .lEncInit) h.scanner hs (by decide) (by decide) with }
      pipeline :=
        { deb_written := fun _ => hdeb
          layer_written := by simp
          modifier_written := by simp
          slots_written := by simp
          slots_shape := h.pipeline.slots_shape
          rep_written := by simp }
      timer := { timerInv_goto h.timer hs (by decide) .lEncInit with } }

/-- No key at all is a shape: six zeros (43 R160). -/
theorem slotShape_empty (c : Cfg) : SlotShape c (filled 0x00) := .inl ⟨0, by decide, fun i hi => by simp⟩

/-- ENC_INIT opens the first cell with every slot empty (43 R160). -/
theorem inv_encInit {s t : State} (h : Inv s) (hx : ExecResult .encInit s t) : Inv t := by
  obtain ⟨hs, rfl⟩ := hx
  have ⟨_, _, hpc⟩ := hs
  have hcol : s.seqC = s.cfg.val.ncols := by simpa [hpc, columnLabels] using h.sequencer.column_range
  have hdeb : s.deb ≠ none := deb_written_of_inv h hpc (by decide)
  exact
    { sequencer :=
        { sequencerInv_move (l' := .lEncCell) h hs (by decide) hcol (cellCount_pos s.cfg) with }
      scanner := { scannerInv_goto (l' := .lEncCell) h.scanner hs (by decide) (by decide) with }
      pipeline :=
        { deb_written := fun _ => hdeb
          layer_written := fun _ => h.pipeline.layer_written (by simp [hpc])
          modifier_written := by simp
          slots_written := by simp
          slots_shape := fun sl hsl => by injection hsl with hsl; exact hsl ▸ slotShape_empty _
          rep_written := by simp }
      timer := { timerInv_goto h.timer hs (by decide) .lEncCell with } }

theorem inv_setModifier {s : State} (h : Inv s) (m : Byte) : Inv { s with modifier := some m } where
  sequencer := { h.sequencer with }
  scanner := { h.scanner with }
  pipeline := { h.pipeline with modifier_written := by simp }
  timer := { h.timer with }

theorem inv_setSlots {s : State} (h : Inv s) {sl : Slots} (hsl : SlotShape s.cfg.val sl) :
    Inv { s with slots := some sl } where
  sequencer := { h.sequencer with }
  scanner := { h.scanner with }
  pipeline :=
    { h.pipeline with
      slots_written := by simp
      slots_shape := fun sl' he => by injection he with he; exact he ▸ hsl }
  timer := { h.timer with }

/-- The advance opens the next cell or ends the walk (43 R161). -/
theorem inv_advanceCell {s : State} (h : Inv s) (hs : pollAt .lEncCell s) : Inv s.advanceCell := by
  have ⟨_, _, hpc⟩ := hs
  have hk := seqK_lt_of_inv h hpc
  have hcol : s.seqC = s.cfg.val.ncols := by simpa [hpc, columnLabels] using h.sequencer.column_range
  by_cases hlast : s.seqK + 1 < cellCount s.cfg.val
  · rw [State.advanceCell, if_pos hlast]
    exact
      { sequencer := { sequencerInv_move (l' := .lEncCell) h hs (by decide) hcol hlast with }
        scanner := { scannerInv_goto (l' := .lEncCell) h.scanner hs (by decide) (by decide) with }
        pipeline := { pipelineInv_goto (l' := .lEncCell) h.pipeline hs (by decide) with }
        timer := { timerInv_goto h.timer hs (by decide) .lEncCell with } }
  · rw [State.advanceCell, if_neg hlast]
    exact
      { sequencer := { sequencerInv_move (l' := .lEncDone) h hs (by decide) hcol hk with }
        scanner := { scannerInv_goto (l' := .lEncDone) h.scanner hs (by decide) (by decide) with }
        pipeline := { pipelineInv_goto (l' := .lEncDone) h.pipeline hs (by decide) with }
        timer := { timerInv_goto h.timer hs (by decide) .lEncDone with } }

/-- A key put at the first empty slot keeps the keys packed from the left (43 R166, R172). -/
theorem slotShape_putKey {w : WfCfg} {sl : Slots} {kc : Byte} (h : SlotShape w.val sl) (hfull : slotsFull sl = false)
    (hkc : classOf w.val kc = .normal) : SlotShape w.val (putKey sl kc) := by
  obtain ⟨n, hn, hsl⟩ | ⟨b, hb, rfl⟩ := h
  · have hkeys : ∀ i (hi : i < 6), i < n → sl[i] ≠ 0x00 := fun i hi hlt =>
      ne_zero_of_class w (by have := hsl i hi; rw [if_pos hlt] at this; simp [this])
    have hlt : n < 6 := by
      rw [Bool.eq_false_iff, ne_eq, slotsFull_iff] at hfull
      by_contra hge
      exact hfull fun i hi => hkeys i hi (by omega)
    have hempty : sl[n] = 0x00 := by simpa using hsl n hlt
    have hfirst : firstEmpty sl = n :=
      (List.findIdx_eq (by simpa using hlt)).2
        ⟨by simpa using hempty, fun j hj => by simpa using hkeys j (by omega) hj⟩
    refine .inl ⟨n + 1, hlt, fun i hi => ?_⟩
    by_cases hin : n = i
    · subst hin
      simpa [putKey, hfirst] using hkc
    · have hsame : (putKey sl kc)[i] = sl[i] := by rw [putKey, hfirst, Vector.getElem_setIfInBounds_ne _ hin]
      rw [hsame]
      have hold := hsl i hi
      by_cases hi' : i < n
      · simpa [hi', Nat.lt_succ_of_lt hi'] using hold
      · simpa [hi', show ¬i < n + 1 by omega] using hold
  · have hall : slotsFull (filled b) = true :=
      (slotsFull_iff _).2 fun i hi => by simpa using ne_zero_of_class w (by simp [hb])
    simp [hall] at hfull

/-- The form SENT is selected for a byte of class Sentinel (43 R164). -/
theorem class_of_sentinelForm {s : State} {kc : Byte} (hf : encForm s = .ok (.sentinel kc)) :
    classOf s.cfg.val kc = .sentinel := by
  obtain ⟨m, -, ⟨-, hskip⟩ | ⟨-, l, k, -, -, hkey⟩⟩ := encForm_ok hf
  · cases hskip
  · obtain ⟨rfl, hc⟩ := encFormOfKey_ok hkey
    exact hc

/-- The form KEY is selected for a byte of class Normal while a slot is empty (43 R166). -/
theorem slots_of_keyForm {s : State} {kc : Byte} {sl : Slots} (hf : encForm s = .ok (.key kc sl)) :
    classOf s.cfg.val kc = .normal ∧ s.slots = some sl ∧ slotsFull sl = false := by
  obtain ⟨m, -, ⟨-, hskip⟩ | ⟨-, l, k, -, -, hkey⟩⟩ := encForm_ok hf
  · cases hskip
  · obtain ⟨rfl, hc⟩ := encFormOfKey_ok hkey
    exact hc

theorem inv_encDone {s t : State} (h : Inv s) (hx : ExecResult .encDone s t) : Inv t := by
  obtain ⟨hs, m, sl, -, -, rfl⟩ := hx
  have ⟨_, _, hpc⟩ := hs
  have hdeb : s.deb ≠ none := deb_written_of_inv h hpc (by decide)
  exact
    { sequencer := { sequencerInv_goto (l' := .lCsEnter) h hs (by decide) (by decide) with }
      scanner := { scannerInv_goto (l' := .lCsEnter) h.scanner hs (by decide) (by decide) with }
      pipeline :=
        { deb_written := fun _ => hdeb
          layer_written := by simp
          modifier_written := by simp
          slots_written := by simp
          slots_shape := h.pipeline.slots_shape
          rep_written := by simp }
      timer := { timerInv_goto h.timer hs (by decide) .lCsEnter with } }

/-! ### The critical section -/

/-- MASK and the critical section begin together, outside a handler (45 R205). -/
theorem inv_csEnter {s t : State} (h : Inv s) (hx : ExecResult .csEnter s t) : Inv t := by
  obtain ⟨hs, rfl⟩ := hx
  have ⟨hirq, hb, hpc⟩ := hs
  exact
    { sequencer :=
        { column_range := by simpa [hpc, columnLabels] using h.sequencer.column_range
          cell_range := by simpa using seqK_le_of_inv h
          boot_phase := by simp [bootLabels]
          loop_phase := fun _ => h.sequencer.loop_phase (by simp [hpc, loopLabels])
          mask_critical := by simp [criticalLabels]
          handler_unmasked := by simp [hirq]
          booted_at_enter := by simp [hb] }
      scanner := { scannerInv_goto (l' := .lCommit) h.scanner hs (by decide) (by decide) with }
      pipeline := { pipelineInv_goto (l' := .lCommit) h.pipeline hs (by decide) with }
      timer := { timerInv_goto h.timer hs (by decide) .lCommit with } }

/-- MASK and the critical section end together (45 R211). -/
theorem inv_csExit {s t : State} (h : Inv s) (hx : ExecResult .csExit s t) : Inv t := by
  obtain ⟨hs, rfl⟩ := hx
  have ⟨_, hb, hpc⟩ := hs
  exact
    { sequencer :=
        { column_range := by simpa [hpc, columnLabels] using h.sequencer.column_range
          cell_range := by simpa using seqK_le_of_inv h
          boot_phase := by simp [bootLabels]
          loop_phase := fun _ => h.sequencer.loop_phase (by simp [hpc, loopLabels])
          mask_critical := by simp [criticalLabels]
          handler_unmasked := by simp
          booted_at_enter := by simp [hb] }
      scanner := { scannerInv_goto (l' := .lRearm) h.scanner hs (by decide) (by decide) with }
      pipeline := { pipelineInv_goto (l' := .lRearm) h.pipeline hs (by decide) with }
      timer := { timerInv_goto h.timer hs (by decide) .lRearm with } }

/-! ### The interrupt context and the environment -/

/-- IRQ_ENTER: MASK is 0 where the handler begins (45 R215). -/
theorem inv_irqEnter {s t : State} (h : Inv s) (hx : ExecResult .irqEnter s t) : Inv t := by
  obtain ⟨-, hmask, -, hb, rfl⟩ := hx
  exact
    { sequencer := { h.sequencer with handler_unmasked := fun _ => hmask, booted_at_enter := by simp [takeInterrupt, hb] }
      scanner := { h.scanner with }
      pipeline := { h.pipeline with }
      timer := { h.timer with } }

theorem inv_irqExit {s t : State} (h : Inv s) (hx : ExecResult .irqExit s t) : Inv t := by
  obtain ⟨⟨-, hb⟩, rfl⟩ := hx
  exact
    { sequencer :=
        { h.sequencer with
          handler_unmasked := by simp [returnFromInterrupt]
          booted_at_enter := by simp [returnFromInterrupt, hb] }
      scanner := { h.scanner with }
      pipeline := { h.pipeline with }
      timer := { h.timer with } }

/-- Only an armed timer expires (45 R222). -/
theorem inv_expireTimer {s : State} (h : Inv s) (harmed : s.tmrArmed = true) : Inv (expireTimer s) where
  sequencer := { h.sequencer with }
  scanner := { h.scanner with }
  pipeline := { h.pipeline with }
  timer := { h.timer with expired_armed := fun _ => harmed, cycle_expired := fun _ _ => rfl }

/-! ### Every operation and every step -/

theorem exec_keeps_inv {i : Instr} {s t : State} (h : Inv s) (he : exec i s = .next t) : Inv t := by
  have hx := exec_next_result he
  cases i with
  | colAssert => exact inv_colAssert h hx
  | settle => exact inv_settle h hx
  | rowSample => exact inv_rowSample h hx
  | colDeassert => exact inv_colDeassert h hx
  | colNext => exact inv_colNext h hx
  | dbfPump => exact inv_dbfPump h hx
  | bootCheck => exact inv_bootCheck h hx
  | bootEnter => exact inv_bootEnter h hx
  | tmrArmFirst => exact inv_tmrArmFirst h hx
  | tmrArmPeriod => exact inv_tmrArmPeriod h hx
  | tmrWait => exact inv_tmrWait h hx
  | layerSel => exact inv_layerSel h hx
  | encInit => exact inv_encInit h hx
  | encCellSkip => obtain ⟨hs, -, rfl⟩ := hx; exact inv_advanceCell h hs
  | encCellEmpty => obtain ⟨hs, -, rfl⟩ := hx; exact inv_advanceCell h hs
  | encCellMod => obtain ⟨hs, mask, m, -, -, rfl⟩ := hx; exact inv_advanceCell (inv_setModifier h _) hs
  | encCellSent =>
    obtain ⟨hs, kc, hf, rfl⟩ := hx
    exact inv_advanceCell (inv_setSlots h (.inr ⟨kc, class_of_sentinelForm hf, rfl⟩)) hs
  | encCellKey =>
    obtain ⟨hs, kc, sl, hf, rfl⟩ := hx
    obtain ⟨hkc, hsl, hfull⟩ := slots_of_keyForm hf
    exact inv_advanceCell (inv_setSlots h (slotShape_putKey (h.pipeline.slots_shape sl hsl) hfull hkc)) hs
  | encCellOvf =>
    obtain ⟨hs, -, rfl⟩ := hx
    exact inv_advanceCell (inv_setSlots h (.inr ⟨_, classOf_rollover s.cfg, rfl⟩)) hs
  | encDone => exact inv_encDone h hx
  | csEnter => exact inv_csEnter h hx
  | commit => obtain ⟨hs, r, -, rfl⟩ := hx; exact inv_frame_goto h hs (by decide) (by decide) _ _ _ _ _
  | pushSuppress => obtain ⟨hs, -, rfl⟩ := hx; exact inv_frame_goto h hs (by decide) (by decide) _ _ _ _ _
  | pushOk => obtain ⟨hs, r, -, -, rfl⟩ := hx; exact inv_frame_goto h hs (by decide) (by decide) _ _ _ _ _
  | pushWouldBlock => obtain ⟨hs, r, -, -, rfl⟩ := hx; exact inv_frame_goto h hs (by decide) (by decide) _ _ _ _ _
  | pushHard kind => obtain ⟨hs, r, -, -, rfl⟩ := hx; exact inv_frame_goto h hs (by decide) (by decide) _ _ _ _ _
  | csExit => exact inv_csExit h hx
  | irqEnter => exact inv_irqEnter h hx
  | getReportInput id => obtain ⟨-, rfl⟩ := hx; exact inv_frame h _ _ _ _ _ _ _ _
  | getReportUnsup type id => obtain ⟨-, -, rfl⟩ := hx; exact inv_frame h _ _ _ _ _ _ _ _
  | setReportLed b => obtain ⟨-, rfl⟩ := hx; exact inv_frame h _ _ _ _ _ _ _ _
  | setReportUnsup type id payload => obtain ⟨-, -, rfl⟩ := hx; exact inv_frame h _ _ _ _ _ _ _ _
  | getDescriptor => obtain ⟨-, rfl⟩ := hx; exact inv_frame h _ _ _ _ _ _ _ _
  | irqExit => exact inv_irqExit h hx

theorem step_keeps_inv {s t : State} (h : Inv s) (hstep : step s = .next t) : Inv t := by
  obtain ⟨hb, ⟨-, rfl⟩ | ⟨hm, rfl⟩ | ⟨bytes, i, -, -, he⟩⟩ := step_next_cases hstep
  · exact inv_frame (inv_useMove h) _ _ _ _ _ _ _ _
  · have htick : tickEnabled s = true := by simpa [hm, moveEnabled] using nextMove_enabled hb
    exact inv_expireTimer (inv_useMove h) ((tickEnabled_iff s).1 htick).1
  · exact exec_keeps_inv (inv_useMove h) he

/-- Under the invariant an asserted line is that of SEQ.c, at the labels that settle and sample it (70 R271). -/
theorem asserted_line_of_inv {s : State} {c : Nat} (h : Inv s) (hc : s.col[c]? = some true) :
    c = s.seqC ∧ s.seqPc ∈ assertedLabels := by
  obtain ⟨hlt, hc⟩ := Vector.getElem?_eq_some_iff.1 hc
  rw [h.scanner.levels] at hc
  unfold columnLevels at hc
  split at hc
  · next hl =>
    refine ⟨?_, hl⟩
    by_contra hne
    rw [Vector.getElem_setIfInBounds_ne _ (Ne.symm hne)] at hc
    simp at hc
  · simp at hc

end Sys2Proof.Machine

namespace Sys2Proof.Proofs

open Sys2Proof.Machine

/-- Settles O46: every operation of both contexts and both moves of the environment keep the invariant. -/
theorem stepKeepsTheInvariant : Obligations.StepKeepsTheInvariant :=
  fun _ _ h hstep => step_keeps_inv h hstep

/-- Settles O50: the invariant gives the levels of the lines, and every step keeps it. -/
theorem atMostOneColumnIsAsserted : Obligations.AtMostOneColumnIsAsserted :=
  ⟨fun _ _ h hc => asserted_line_of_inv h hc, fun _ _ _ h hstep hc => asserted_line_of_inv (step_keeps_inv h hstep) hc⟩

end Sys2Proof.Proofs
end

section
/-!
PROOFS. Which operations write which register (10_state R21 to R39, R44), as one frame rule for all operations; and where no
operation runs: at BOOTED = 1 (R39) and where a register it reads is unwritten (R47).
-/

namespace Sys2Proof.Machine

/-! ### The frame rule -/

/-- The registers of the block, CFG and the answers to the host (10_state R20). -/
inductive Reg where
  | cfg | col | raw | dbs | deb | layer | modifier | slots | rep | lastSent
  | seqPc | seqC | seqK | seqBoot | brReport | led | mask | irqPending | inIrq
  | tmrArmed | tmrExpired | booted | replies

/-- Register `r` holds the same in both states. -/
@[simp] def Reg.Same (r : Reg) (s t : State) : Prop :=
  match r with
  | .cfg => t.cfg = s.cfg
  | .col => t.colCells = s.colCells
  | .raw => t.rawCells = s.rawCells
  | .dbs => t.dbsCells = s.dbsCells
  | .deb => t.debCells = s.debCells
  | .layer => t.layer = s.layer
  | .modifier => t.modifier = s.modifier
  | .slots => t.slots = s.slots
  | .rep => t.rep = s.rep
  | .lastSent => t.lastSent = s.lastSent
  | .seqPc => t.seqPc = s.seqPc
  | .seqC => t.seqC = s.seqC
  | .seqK => t.seqK = s.seqK
  | .seqBoot => t.seqBoot = s.seqBoot
  | .brReport => t.brReport = s.brReport
  | .led => t.led = s.led
  | .mask => t.mask = s.mask
  | .irqPending => t.irqPending = s.irqPending
  | .inIrq => t.inIrq = s.inIrq
  | .tmrArmed => t.tmrArmed = s.tmrArmed
  | .tmrExpired => t.tmrExpired = s.tmrExpired
  | .booted => t.booted = s.booted
  | .replies => t.replies = s.replies

/-- Instruction `i` is a writer of `r`, as the register's rule names them (10_state R21 to R39, R41). SEQ.pc is every
operation's of the poll context, the answers are the interrupt context's. -/
@[simp] def Reg.Writer (r : Reg) (i : Instr) : Prop :=
  match r with
  | .cfg => False
  | .col => i = .colAssert ∨ i = .colDeassert
  | .raw => i = .rowSample ∨ i = .dbfPump
  | .dbs | .deb => i = .dbfPump
  | .layer => i = .layerSel
  | .modifier => i = .encInit ∨ i = .encCellMod
  | .slots => i = .encInit ∨ i = .encCellSent ∨ i = .encCellKey ∨ i = .encCellOvf
  | .rep => i = .encDone
  | .lastSent => i = .pushOk
  | .seqPc => ofIrqContext i = false
  | .seqC => i = .colNext ∨ i = .tmrWait
  | .seqK => i = .encInit ∨ i.uop = .encCell
  | .seqBoot => i = .tmrArmFirst
  | .brReport => i = .commit
  | .led => ∃ b, i = .setReportLed b
  | .mask => i = .csEnter ∨ i = .csExit
  | .irqPending => i = .irqEnter
  | .inIrq => i = .irqEnter ∨ i = .irqExit
  | .tmrArmed | .tmrExpired => i = .tmrArmFirst ∨ i = .tmrArmPeriod
  | .booted => i = .bootEnter
  | .replies => ofIrqContext i = true

/-- The frame rule: an operation leaves every register that it is no writer of. The next state ExecResult names is written out for
each operation, and then compared with the old one register by register. -/
theorem exec_same {i : Instr} {s t : State} (h : exec i s = .next t) (r : Reg) (hr : ¬r.Writer i) : r.Same s t := by
  have hx := exec_next_result h
  cases i
  case' settle => obtain ⟨-, rfl⟩ | ⟨-, rfl⟩ := hx
  case' tmrWait => obtain ⟨-, ⟨-, rfl⟩ | ⟨-, rfl⟩⟩ := hx
  case' colNext | bootEnter | encInit | csEnter | csExit | getReportInput | setReportLed | getDescriptor | irqExit =>
    obtain ⟨-, rfl⟩ := hx
  case' colAssert | rowSample | colDeassert | tmrArmFirst | tmrArmPeriod | encCellSkip | encCellEmpty | encCellOvf
      | pushSuppress | getReportUnsup | setReportUnsup =>
    obtain ⟨-, -, rfl⟩ := hx
  case' dbfPump | bootCheck | layerSel | encCellSent | commit => obtain ⟨-, _, -, rfl⟩ := hx
  case' pushOk | pushWouldBlock | pushHard | encCellKey => obtain ⟨-, _, _, -, rfl⟩ := hx
  case' encCellMod | encDone => obtain ⟨-, _, _, -, -, rfl⟩ := hx
  case' irqEnter => obtain ⟨-, -, -, -, rfl⟩ := hx
  all_goals
    revert hr
    cases r <;>
      simp [State.colCells, State.rawCells, State.dbsCells, State.debCells, ofIrqContext, Instr.uop, takeInterrupt,
        returnFromInterrupt, rejectRequest]

/-- A register that an operation changed names it as a writer. -/
theorem writer_of_changed {i : Instr} {s t : State} (h : exec i s = .next t) {r : Reg} (hr : ¬r.Same s t) : r.Writer i :=
  not_not.1 fun hw => hr (exec_same h r hw)

/-- The registers that the interrupt context writes, and the answers; all others are the poll context's (10_state R44). -/
def Reg.irqOwned (r : Reg) : Bool :=
  match r with
  | .led | .irqPending | .inIrq | .replies => true
  | _ => false

/-- The writers of a register are all of the context that owns it (10_state R44). -/
theorem writer_context {r : Reg} {i : Instr} (h : r.Writer i) : ofIrqContext i = r.irqOwned := by
  cases r
  case cfg => exact h.elim
  case seqPc | replies => exact h
  case led => obtain ⟨b, rfl⟩ := h; rfl
  case seqK =>
    obtain rfl | h := h
    · rfl
    · simp [ofIrqContext, h, Reg.irqOwned]
  case slots => obtain rfl | rfl | rfl | rfl := h <;> rfl
  case col | raw | modifier | seqC | mask | inIrq | tmrArmed | tmrExpired => obtain rfl | rfl := h <;> rfl
  all_goals subst h; rfl

theorem step_keeps_cfg {s t : State} (h : step s = .next t) : t.cfg = s.cfg := by
  obtain ⟨-, ⟨-, rfl⟩ | ⟨-, rfl⟩ | ⟨bytes, i, -, -, he⟩⟩ := step_next_cases h
  · rfl
  · rfl
  · exact exec_same he .cfg id

/-! ### Where no operation runs -/

/-- Every operation's guard asks for BOOTED = 0 (10_state R39, 45 R200, R215). -/
theorem not_booted_of_exec {i : Instr} {s t : State} (h : exec i s = .next t) : s.booted = false := by
  have hx := exec_next_result h
  cases i
  case settle => obtain ⟨⟨-, hb, -⟩, -⟩ | ⟨⟨-, hb, -⟩, -⟩ := hx <;> exact hb
  case tmrArmFirst | tmrArmPeriod => obtain ⟨⟨-, hb, -⟩ | ⟨-, hb, -⟩, -⟩ := hx <;> exact hb
  case irqEnter => obtain ⟨-, -, -, hb, -⟩ := hx; exact hb
  case getReportInput | getReportUnsup | setReportLed | setReportUnsup | getDescriptor | irqExit =>
    obtain ⟨⟨-, hb⟩, -⟩ := hx; exact hb
  all_goals obtain ⟨⟨-, hb, -⟩, -⟩ := hx; exact hb

/-- Where the poll context may take a step at a label that issues the operation, the operation is its body (45 R200). -/
theorem issuedAt_of_pollAt {l : Label} {ls : List Label} {s : State} {k : Out} (hs : pollAt l s) (hl : l ∈ ls) :
    issuedAt ls s k = k := issuedAt_of hs.1 hs.2.1 (by rwa [hs.2.2])

/-! ### The reads of unwritten registers (10_state R47, 93 U16) -/

theorem exec_dbfPump_fault {s : State} (hs : pollAt .sPump s) (hr : none ∈ s.raw) :
    exec .dbfPump s = .fault (.unwritten .raw) := by
  show execDbfPump s = _
  rw [execDbfPump, issuedAt_of_pollAt hs (by simp), (wholeRaw_eq_none _).2 hr]

theorem exec_bootCheck_fault {s : State} (hs : pollAt .bCheck s) (hd : s.deb = none) :
    exec .bootCheck s = .fault (.unwritten .deb) := by
  show execBootCheck s = _
  rw [execBootCheck, issuedAt_of_pollAt hs (by simp), hd, readDeb]

theorem exec_layerSel_fault {s : State} (hs : pollAt .lLayer s) (hd : s.deb = none) :
    exec .layerSel s = .fault (.unwritten .deb) := by
  show execLayerSel s = _
  rw [execLayerSel, issuedAt_of_pollAt hs (by simp), hd, readDeb]

/-- A fault in the choice of the form is the fault of every form of ENC_CELL (43 R161). -/
theorem exec_encCell_fault {i : Instr} {s : State} {f : Fault} (hs : pollAt .lEncCell s) (hi : i.uop = .encCell)
    (hf : encForm s = .error f) : exec i s = .fault f := by
  have hcell (k : EncForm → Out) : encCell s k = .fault f := by
    rw [encCell, issuedAt_of_pollAt hs (by simp), hf]
  cases i <;> simp only [Instr.uop, reduceCtorEq] at hi <;> exact hcell _

/-- Every form of PUSH reads REP (45 R207, R208). -/
theorem exec_push_fault {i : Instr} {s : State} (hs : pollAt .lPush s) (hi : i.uop = .push) (hr : s.rep = none) :
    exec i s = .fault (.unwritten .rep) := by
  have hchanged (k : Report → State) : issuedAt [.lPush] s (pushChanged s k) = .fault (.unwritten .rep) := by
    rw [issuedAt_of_pollAt hs (by simp), pushChanged, hr]
  cases i <;> simp only [Instr.uop, reduceCtorEq] at hi
  case pushSuppress =>
    show execPushSuppress s = _
    rw [execPushSuppress, issuedAt_of_pollAt hs (by simp), hr]
  all_goals exact hchanged _

/-- An asserted cell's key selects the form from SLOT (43 R161). -/
theorem encForm_of_visitsKey {s : State} {kc : Byte} (h : visitsKey kc s) :
    encForm s = encFormOfKey s.cfg.val s.slots kc := by
  obtain ⟨⟨m, hm, hc⟩, l, hl, hk⟩ := h
  exact encForm_of_key hm hc hl hk

theorem exec_encCellMod_fault {s : State} {mask : Byte} (hs : pollAt .lEncCell s) (hf : encForm s = .ok (.modifier mask))
    (hm : s.modifier = none) : exec .encCellMod s = .fault (.unwritten .modifier) := by
  show execEncCellMod s = _
  rw [execEncCellMod, encCell, issuedAt_of_pollAt hs (by simp), hf]
  simp only [hm]

theorem exec_encDone_fault_modifier {s : State} (hs : pollAt .lEncDone s) (hm : s.modifier = none) :
    exec .encDone s = .fault (.unwritten .modifier) := by
  show execEncDone s = _
  rw [execEncDone, issuedAt_of_pollAt hs (by simp), hm]

theorem exec_encDone_fault_slots {s : State} (hs : pollAt .lEncDone s) (hm : s.modifier ≠ none) (hsl : s.slots = none) :
    exec .encDone s = .fault (.unwritten .slots) := by
  obtain ⟨m, hm⟩ := Option.ne_none_iff_exists'.1 hm
  show execEncDone s = _
  rw [execEncDone, issuedAt_of_pollAt hs (by simp), hm, hsl]

theorem exec_commit_fault {s : State} (hs : pollAt .lCommit s) (hr : s.rep = none) :
    exec .commit s = .fault (.unwritten .rep) := by
  show execCommit s = _
  rw [execCommit, issuedAt_of_pollAt hs (by simp), hr]

end Sys2Proof.Machine

namespace Sys2Proof.Proofs

open Sys2Proof.Machine

/-- Settles O41: each clause is the frame rule at one register. -/
theorem onlyTheNamedOperationsWrite : Obligations.OnlyTheNamedOperationsWrite := by
  refine ⟨fun s t h => step_keeps_cfg h, fun i s t h => ?_⟩
  have changed {r : Reg} (hr : ¬r.Same s t) : r.Writer i := writer_of_changed h hr
  exact
    ⟨exec_same h .cfg id, changed (r := .col), changed (r := .raw),
     fun hr => hr.elim (changed (r := .dbs)) (changed (r := .deb)),
     changed (r := .layer), changed (r := .modifier), changed (r := .slots), changed (r := .rep),
     changed (r := .lastSent), changed (r := .brReport), changed (r := .led), changed (r := .mask),
     changed (r := .irqPending), changed (r := .inIrq),
     fun hr => hr.elim (changed (r := .tmrArmed)) (changed (r := .tmrExpired)),
     changed (r := .seqC), changed (r := .seqK), changed (r := .seqBoot), changed (r := .booted)⟩

/-- Settles O42: a register's writers are of one context, and by the frame rule the other context leaves it. -/
theorem contextsKeepToTheirRegisters : Obligations.ContextsKeepToTheirRegisters := by
  refine ⟨fun i s t hi h => ?_, fun i s t hi h => ?_⟩
  · have same (r : Reg) (hr : r.irqOwned = false) : r.Same s t :=
      exec_same h r fun hw => by simp [← writer_context hw, hi] at hr
    exact
      ⟨same .cfg rfl, same .col rfl, same .raw rfl, same .dbs rfl, same .deb rfl, same .layer rfl, same .modifier rfl,
       same .slots rfl, same .rep rfl, same .lastSent rfl, same .seqPc rfl, same .seqC rfl, same .seqK rfl,
       same .seqBoot rfl, same .brReport rfl, same .mask rfl, same .tmrArmed rfl, same .tmrExpired rfl,
       same .booted rfl⟩
  · have same (r : Reg) (hr : r.irqOwned = true) : r.Same s t :=
      exec_same h r fun hw => by simp [← writer_context hw, hi] at hr
    exact ⟨same .led rfl, same .irqPending rfl, same .inIrq rfl, same .replies rfl⟩

/-- Settles O8: a step starts with the test of BOOTED, and every operation's guard asks for BOOTED = 0. -/
theorem bootedIsTerminal : Obligations.BootedIsTerminal := by
  refine fun s hb => ⟨step_of_booted hb, fun i t h => ?_⟩
  simp [not_booted_of_exec h] at hb

/-- Settles O12: where the guards hold, the read of the unwritten register is what decides. -/
theorem unwrittenRegisterReadFaults : Obligations.UnwrittenRegisterReadFaults :=
  ⟨fun _ hs hr => exec_dbfPump_fault hs hr,
   fun _ hs hd => exec_bootCheck_fault hs hd,
   fun _ hs hd => exec_layerSel_fault hs hd,
   fun _ _ hs hi hd => exec_encCell_fault hs hi (encForm_of_deb_unwritten hd),
   fun _ _ _ hs hi hd hc hl => exec_encCell_fault hs hi (encForm_of_layer_unwritten hd hc hl),
   fun _ _ _ hs hi hk hc hsl =>
     exec_encCell_fault hs hi ((encForm_of_visitsKey hk).trans (by simp only [encFormOfKey, hc, hsl])),
   fun _ _ mask hs hk hc hm =>
     exec_encCellMod_fault (mask := mask) hs ((encForm_of_visitsKey hk).trans (by simp only [encFormOfKey, hc])) hm,
   fun _ hs hm => exec_encDone_fault_modifier hs hm,
   fun _ hs hm hsl => exec_encDone_fault_slots hs hm hsl,
   fun _ hs hr => exec_commit_fault hs hr,
   fun _ _ hs hi hr => exec_push_fault hs hi hr⟩

end Sys2Proof.Proofs
end

section
/-!
PROOFS. The decoder and the encoder are inverse to each other on well-formed instructions (30 R96 to R98, R103), which codes
name no operation (R106), and what the agents issue as records (45 R200, R207).
-/

namespace Sys2Proof

/-! ### From an instruction to its record and back -/

/-- The operands of a record are read back: the selectors by their form, a request by what its arguments classify. -/
theorem decode_encode {i : Instr} (hwf : i.wf = true) : decode (encode i) = .ok i := by
  cases i with
  | tmrArmFirst => exact decode_tmrArm true
  | tmrArmPeriod => exact decode_tmrArm false
  | pushOk => exact decode_pushChanged .ok
  | pushWouldBlock => exact decode_pushChanged .wouldBlock
  | pushHard kind => exact decode_pushChanged (.hard kind)
  | getReportInput id => exact decode_encodeRequest (.getReport .input id)
  | getReportUnsup type id =>
    obtain ⟨rfl, -⟩ | ⟨-, hform⟩ := classifyGet_cases type id
    · simp [Instr.wf] at hwf
    · exact (decode_encodeRequest (.getReport type id)).trans (congrArg _ hform)
  | setReportLed b => exact decode_encodeRequest (.setReport .output 0 [b])
  | setReportUnsup type id payload =>
    obtain ⟨b, rfl, rfl, rfl, -⟩ | ⟨-, hform⟩ := classifySet_cases type id payload
    · simp [Instr.wf, setReportAccepted] at hwf
    · exact (decode_encodeRequest (.setReport type id payload)).trans (congrArg _ hform)
  | _ => rfl

/-! ### From a record to its instruction and back -/

/-- `i` is an instruction of the table and `bytes` is its record. -/
def Instr.HasRecord (i : Instr) (bytes : List Byte) : Prop := i.wf = true ∧ encode i = bytes

/-- An operation without operands has one record: every operand byte is absent or zero. -/
theorem hasRecord_of_bare {u : Uop} {i j : Instr} {sel arg id : Byte} {payload : List Byte}
    (hi : i.HasRecord (record u 0 0 0 [])) (h : bare sel arg id payload i = .ok j) :
    j.HasRecord (record u sel arg id payload) := by
  unfold bare at h
  split at h
  · next hzero => obtain ⟨rfl, rfl, rfl, rfl⟩ := hzero; cases h; exact hi
  · cases h

theorem hasRecord_of_tmrArm {sel : Byte} {i : Instr} (h : decodeTmrArm sel = .ok i) :
    i.HasRecord (record .tmrArm sel 0 0 []) := by
  unfold decodeTmrArm at h
  split at h <;> cases h <;> exact ⟨rfl, congrArg (record .tmrArm · 0 0 []) (BitVec.eq_of_toNat_eq (Eq.symm ‹_›))⟩

theorem hasRecord_of_encCell {sel : Byte} {i : Instr} (h : decodeEncCell sel = .ok i) :
    i.HasRecord (record .encCell sel 0 0 []) := by
  unfold decodeEncCell at h
  split at h <;> cases h <;> exact ⟨rfl, congrArg (record .encCell · 0 0 []) (BitVec.eq_of_toNat_eq (Eq.symm ‹_›))⟩

/-- A result code that names a result is that result's code (60 R230). -/
theorem pushCode_of_ofCode {b : Byte} {res : PushRes} (h : PushRes.ofCode b = some res) : res.code = b := by
  unfold PushRes.ofCode at h
  split at h <;> cases h <;> exact BitVec.eq_of_toNat_eq (Eq.symm ‹_›)

/-- The form of PUSH for a result carries its code. -/
theorem pushForm_hasRecord (res : PushRes) : res.form.HasRecord (record .push (pushSelector true) res.code 0 []) := by
  cases res <;> exact ⟨rfl, rfl⟩

theorem hasRecord_of_push {sel res : Byte} {i : Instr} (h : decodePush sel res = .ok i) :
    i.HasRecord (record .push sel res 0 []) := by
  unfold decodePush at h
  split at h
  · next hsel =>
    rw [show sel = 0 from BitVec.eq_of_toNat_eq hsel]
    split at h
    · next hres => cases h; subst hres; exact ⟨rfl, rfl⟩
    · cases h
  · next hsel =>
    rw [show sel = 1 from BitVec.eq_of_toNat_eq hsel]
    split at h
    · next hres => cases h; rw [← pushCode_of_ofCode hres]; exact pushForm_hasRecord .ok
    · next hres => cases h; rw [← pushCode_of_ofCode hres]; exact pushForm_hasRecord .wouldBlock
    · next k hres => cases h; rw [← pushCode_of_ofCode hres]; exact pushForm_hasRecord (.hard k)
    · cases h
  · cases h

/-- Two bytes that carry a report type are its tag (log 8). -/
theorem tag_of_ofTag {tag n : Byte} {type : RType} (h : RType.ofTag tag n = .ok type) : type.tag = (tag, n) := by
  unfold RType.ofTag at h
  split at h
  · next htag =>
    rw [show tag = 0 from BitVec.eq_of_toNat_eq htag]
    split at h
    · next hn => cases h; rw [hn]; rfl
    · cases h
  · next htag =>
    rw [show tag = 1 from BitVec.eq_of_toNat_eq htag]
    split at h
    · next hn => cases h; rw [hn]; rfl
    · cases h
  · next htag => cases h; rw [show tag = 2 from BitVec.eq_of_toNat_eq htag]; rfl
  · cases h

/-- A request's record is that of the instruction it is a form of (30 R98, R103). -/
theorem requestForm_hasRecord (r : Request) : r.form.HasRecord (encodeRequest r) := by
  cases r with
  | getReport type id =>
    obtain ⟨rfl, hform⟩ | ⟨ht, hform⟩ := classifyGet_cases type id <;> rw [Request.form, hform]
    · exact ⟨rfl, rfl⟩
    · exact ⟨by simp [Instr.wf, ht], rfl⟩
  | setReport type id payload =>
    obtain ⟨b, rfl, rfl, rfl, hform⟩ | ⟨hrej, hform⟩ := classifySet_cases type id payload <;> rw [Request.form, hform]
    · exact ⟨rfl, rfl⟩
    · exact ⟨by simp [Instr.wf, hrej], rfl⟩
  | getDescriptor => exact ⟨rfl, rfl⟩

theorem hasRecord_of_getReport {sel arg id : Byte} {payload : List Byte} {i : Instr}
    (h : decodeOperands .getReport sel arg id payload = .ok i) : i.HasRecord (record .getReport sel arg id payload) := by
  rw [decodeOperands] at h
  split at h
  · next hp =>
    split at h
    · next type ht =>
      cases h
      simpa [Request.form, encodeRequest, tag_of_ofTag ht, hp] using requestForm_hasRecord (.getReport type id)
    · cases h
  · cases h

theorem hasRecord_of_setReport {sel arg id : Byte} {payload : List Byte} {i : Instr}
    (h : decodeOperands .setReport sel arg id payload = .ok i) : i.HasRecord (record .setReport sel arg id payload) := by
  rw [decodeOperands] at h
  split at h
  · next type ht =>
    cases h
    simpa [Request.form, encodeRequest, tag_of_ofTag ht] using requestForm_hasRecord (.setReport type id payload)
  · cases h

/-- Operand bytes that an operation accepts are those of the instruction they give. -/
theorem hasRecord_of_operands {u : Uop} {sel arg id : Byte} {payload : List Byte} {i : Instr}
    (h : decodeOperands u sel arg id payload = .ok i) : i.HasRecord (record u sel arg id payload) := by
  cases u
  case tmrArm =>
    rw [decodeOperands] at h
    split at h
    · next hz => obtain ⟨rfl, rfl, rfl⟩ := hz; exact hasRecord_of_tmrArm h
    · cases h
  case encCell =>
    rw [decodeOperands] at h
    split at h
    · next hz => obtain ⟨rfl, rfl, rfl⟩ := hz; exact hasRecord_of_encCell h
    · cases h
  case push =>
    rw [decodeOperands] at h
    split at h
    · next hz => obtain ⟨rfl, rfl⟩ := hz; exact hasRecord_of_push h
    · cases h
  case getReport => exact hasRecord_of_getReport h
  case setReport => exact hasRecord_of_setReport h
  all_goals exact hasRecord_of_bare ⟨rfl, rfl⟩ h

/-! ### Byte 0: the 5-bit code (30 R96, R106, R107) -/

/-- A code that names an operation is that operation's code (30 R97, R98). -/
theorem code_of_ofCode {op : OpCode} {u : Uop} (h : Uop.ofCode op = some u) : u.code = op := by
  unfold Uop.ofCode at h
  split at h <;> cases h <;> exact BitVec.eq_of_toNat_eq (Eq.symm ‹_›)

/-- A byte is its three high bits and its code. -/
theorem high_append_low (b : Byte) : b.extractLsb' 5 3 ++ b.extractLsb' 0 5 = b :=
  (BitVec.extractLsb'_append_extractLsb'_eq_extractLsb' rfl).trans BitVec.extractLsb'_eq_self

/-- What decodes is the record of an operation whose operand bytes are accepted. -/
theorem record_of_decode {bytes : List Byte} {i : Instr} (h : decode bytes = .ok i) :
    ∃ u sel arg id payload, bytes = record u sel arg id payload ∧ decodeOperands u sel arg id payload = .ok i := by
  unfold decode at h
  split at h
  · next b0 sel arg id payload =>
    split at h
    · next hhigh =>
      split at h
      · next u hu =>
        refine ⟨u, sel, arg, id, payload, ?_, h⟩
        have hbyte : opByte u = b0 := by rw [opByte, code_of_ofCode hu, ← hhigh, high_append_low]
        rw [record, hbyte]
      · cases h
    · cases h
  · cases h

theorem hasRecord_of_decode {bytes : List Byte} {i : Instr} (h : decode bytes = .ok i) : i.HasRecord bytes := by
  obtain ⟨u, sel, arg, id, payload, rfl, hops⟩ := record_of_decode h
  exact hasRecord_of_operands hops

/-- The codes that name no operation, among the 32 (30 R106). -/
theorem ofCode_eq_none_iff (op : OpCode) :
    Uop.ofCode op = none ↔
      op = 0b00000 ∨ (0b10011 ≤ op.toNat ∧ op.toNat ≤ 0b10111) ∨ (0b11101 ≤ op.toNat ∧ op.toNat ≤ 0b11111) := by
  revert op
  decide

/-- A header byte whose code names no operation is refused by that code (30 R106). -/
theorem decode_illegal {op : OpCode} (h : Uop.ofCode op = none) (sel arg id : Byte) (payload : List Byte) :
    decode (((0 : BitVec 3) ++ op) :: sel :: arg :: id :: payload) = .error (.illegalOp op) := by
  have hhigh : ((0 : BitVec 3) ++ op).extractLsb' 5 3 = 0 := BitVec.extractLsb'_append_eq_left
  have hlow : ((0 : BitVec 3) ++ op).extractLsb' 0 5 = op := BitVec.extractLsb'_append_eq_right
  simp only [decode, hhigh, hlow, h, if_true]

/-! ### The operation of a record -/

theorem encode_header (i : Instr) : Laws.EncodeHeader.Statement i := by cases i <;> exact ⟨_, _, _, _, rfl⟩

theorem opByte_injective {u v : Uop} (h : opByte u = opByte v) : u = v := by
  have hcode : u.code = v.code := by rw [← opByte_low u, ← opByte_low v, h]
  exact Option.some.inj (by rw [← ofCode_code u, ← ofCode_code v, hcode])

/-- A record of an operation decodes to a form of that operation (30 R96). -/
theorem uop_of_decode_record {u : Uop} {sel arg id : Byte} {payload : List Byte} {i : Instr}
    (h : decode (record u sel arg id payload) = .ok i) : i.uop = u := by
  obtain ⟨-, hrec⟩ := hasRecord_of_decode h
  obtain ⟨_, _, _, _, hhead⟩ := encode_header i
  rw [hhead, record] at hrec
  injection hrec with hop
  exact opByte_injective hop

/-- Every request is the interrupt context's (30 R98). -/
theorem requestForm_irqContext (r : Request) : Machine.ofIrqContext r.form = true := by
  cases r with
  | getReport type id => obtain ⟨-, hform⟩ | ⟨-, hform⟩ := classifyGet_cases type id <;> rw [Request.form, hform] <;> rfl
  | setReport type id payload =>
    obtain ⟨_, -, -, -, hform⟩ | ⟨-, hform⟩ := classifySet_cases type id payload <;> rw [Request.form, hform] <;> rfl
  | getDescriptor => rfl

end Sys2Proof

namespace Sys2Proof.Machine

/-- What the poll context issues is a record of the operation, and some form of it (45 R200). -/
theorem issued_form {u : Uop} {s : State} {bytes : List Byte} (h : issueRecord u s = .ok bytes) :
    ∃ i, decode bytes = .ok i ∧ i.uop = u := by
  have form {sel arg : Byte} {i : Instr} (hd : decode (record u sel arg 0 []) = .ok i)
      (hb : record u sel arg 0 [] = bytes) : ∃ i, decode bytes = .ok i ∧ i.uop = u :=
    ⟨i, hb ▸ hd, uop_of_decode_record hd⟩
  cases u
  case tmrArm => injection h with h; exact form (decode_tmrArm s.seqBoot) h
  case encCell =>
    rw [issueRecord] at h
    split at h
    · cases h
    · next f hf => injection h with h; exact form (decode_encCell f) h
  case push =>
    rw [issueRecord] at h
    split at h
    · cases h
    · split at h
      · injection h with h; exact form (decode_pushChanged (pushAnswer s)) h
      · injection h with h; exact form decode_pushUnchanged h
  all_goals injection h with h; exact form rfl h

/-- A form that the poll context issues at its label is one of the label's operation (45 R200). -/
theorem uop_of_issues {s : State} {i : Instr} (h : Issues .poll s i) : i.uop = microprogram s.seqPc := by
  obtain ⟨bytes, hf, hd⟩ := h
  obtain ⟨j, hj, hu⟩ := issued_form hf
  rw [hd] at hj
  cases hj
  exact hu

/-- The record issued for a changed report is that of the drawn result's form (45 R207). -/
theorem fetch_pushChanged {s : State} {r : Report} (hl : s.seqPc = .lPush) (hr : s.rep = some r) (hc : r ≠ s.lastSent) :
    fetchMove .poll s = .ok (encode (pushAnswer s).form) := by
  obtain ⟨-, hrec⟩ := pushForm_hasRecord (pushAnswer s)
  simp only [fetchMove, hl, microprogram, issueRecord, hr, (changedFrom_iff r s).2 hc, if_true, hrec]

end Sys2Proof.Machine

namespace Sys2Proof.Proofs

open Sys2Proof.Machine

/-- Settles O1: the header gives the operation back, and the operand bytes its form. -/
theorem decodeOfEncodeIsTheInstruction : Obligations.DecodeOfEncodeIsTheInstruction :=
  fun _ hwf => decode_encode hwf

/-- Settles O2: a record that decodes is a header and accepted operand bytes, and each operation accepts only its own. -/
theorem decodedRecordIsTheEncoding : Obligations.DecodedRecordIsTheEncoding :=
  fun _ _ h => hasRecord_of_decode h

/-- Settles O6: what is issued is a record of the label's operation, so it decodes to a form of it. -/
theorem issuedRecordsDecode : Obligations.IssuedRecordsDecode := by
  refine ⟨fun s bytes h => ?_, fun s r res rest hl hr hc hp => ?_, fun s r => ?_⟩
  · obtain ⟨i, hd, hu⟩ := issued_form (u := microprogram s.seqPc) h
    exact ⟨i, hd, (hasRecord_of_decode hd).1, hu⟩
  · have hres : pushAnswer s = res := by simp only [pushAnswer, hp]
    rw [fetch_pushChanged hl hr hc, hres]
    cases res <;> rfl
  · obtain ⟨hwf, hrec⟩ := requestForm_hasRecord r
    exact ⟨r.form, congrArg _ hrec.symm, decode_encode hwf, hwf, requestForm_irqContext r⟩

/-- Settles O3: the 32 codes one by one, the decoder's test of the code, and the codes of the labels' operations. -/
theorem illegalCodesAreRefusedByName : Obligations.IllegalCodesAreRefusedByName :=
  ⟨ofCode_eq_none_iff, fun _ sel arg id payload h => decode_illegal h sel arg id payload, fun _ => ofCode_code _⟩

/-- Settles O4: the words are evaluated, and the records with selectors or operands are those of their forms. -/
theorem writtenOutWordsDecode : Obligations.WrittenOutWordsDecode :=
  ⟨rfl, rfl, rfl, rfl, rfl, rfl, rfl, rfl, decode_tmrArm true, decode_tmrArm false, decode_encode (i := .encCellKey) rfl,
   decode_encode (i := .pushHard .invalidState) rfl, decode_encode (i := .getReportInput 5) rfl,
   decode_encode (i := .setReportLed 0x1F) rfl⟩

end Sys2Proof.Proofs
end

section
/-!
PROOFS. The report: the bytes ENC_DONE gives it (43 R168, 30 R101), and the shapes that every step keeps (30 R104, 43 R172),
by the frame rule and what the writers of SLOT, REP, BR_REPORT and LAST_SENT make of them.
-/

namespace Sys2Proof.Machine

/-! ### The bytes of an assembled report -/

theorem reportBytes_getElem (r : Report) {i : Nat} (hi : i < (reportBytes r).length) :
    (reportBytes r)[i] = r.extractLsb' (8 * i) 8 := by simp [reportBytes, reportByte]

theorem extract_assembleReport (m : Byte) (sl : Slots) {i : Nat} (hi : i < 8) :
    (assembleReport m sl).extractLsb' (8 * i) 8 = [m, 0x00, sl[0], sl[1], sl[2], sl[3], sl[4], sl[5]][i] := by
  rw [← reportBytes_getElem _ (by simpa [reportBytes] using hi)]
  simp only [reportBytes_assemble]

/-- Slot `i` is byte `i + 2` (30 R101). -/
theorem extract_slot (m : Byte) (sl : Slots) (i : Nat) (hi : i < 6) :
    (assembleReport m sl).extractLsb' (8 * (i + 2)) 8 = sl[i] := by
  rw [extract_assembleReport m sl (by omega)]
  interval_cases i <;> rfl

/-! ### The shapes of the slots and of the reports -/

theorem exec_keeps_slotShape {i : Instr} {s t : State} (h : ∀ sl, s.slots = some sl → SlotShape s.cfg.val sl)
    (he : exec i s = .next t) {sl : Slots} (hsl : t.slots = some sl) : SlotShape s.cfg.val sl := by
  by_cases hw : Reg.slots.Writer i
  · have hx := exec_next_result he
    obtain rfl | rfl | rfl | rfl := hw
    · obtain ⟨-, rfl⟩ := hx
      cases hsl
      exact slotShape_empty _
    · obtain ⟨-, kc, hf, rfl⟩ := hx
      cases hsl
      exact .inr ⟨kc, class_of_sentinelForm hf, rfl⟩
    · obtain ⟨-, kc, old, hf, rfl⟩ := hx
      obtain ⟨hkc, hold, hfull⟩ := slots_of_keyForm hf
      cases hsl
      exact slotShape_putKey (h old hold) hfull hkc
    · obtain ⟨-, -, rfl⟩ := hx
      cases hsl
      exact .inr ⟨_, classOf_rollover s.cfg, rfl⟩
  · exact h sl ((exec_same he .slots hw).symm.trans hsl)

/-- REP is assembled from shaped slots (43 R168). -/
theorem exec_keeps_repShape {i : Instr} {s t : State} (h : ReportInv s) (he : exec i s = .next t) {r : Report}
    (hr : t.rep = some r) : ReportShape s.cfg.val r := by
  by_cases hw : Reg.rep.Writer i
  · obtain rfl : i = .encDone := hw
    obtain ⟨-, m, sl, -, hsl, rfl⟩ := exec_next_result he
    cases hr
    exact ⟨m, sl, h.slots_shape sl hsl, rfl⟩
  · exact h.rep_shape r ((exec_same he .rep hw).symm.trans hr)

/-- BR_REPORT is a copy of REP (45 R206). -/
theorem exec_keeps_bridgeShape {i : Instr} {s t : State} (h : ReportInv s) (he : exec i s = .next t) :
    ReportShape s.cfg.val t.brReport := by
  by_cases hw : Reg.brReport.Writer i
  · obtain rfl : i = .commit := hw
    obtain ⟨-, r, hr, rfl⟩ := exec_next_result he
    exact h.rep_shape r hr
  · exact (exec_same he .brReport hw : t.brReport = s.brReport) ▸ h.bridge_shape

/-- LAST_SENT is a copy of REP (45 R209). -/
theorem exec_keeps_sentShape {i : Instr} {s t : State} (h : ReportInv s) (he : exec i s = .next t) :
    ReportShape s.cfg.val t.lastSent := by
  by_cases hw : Reg.lastSent.Writer i
  · obtain rfl : i = .pushOk := hw
    obtain ⟨-, r, hr, -, rfl⟩ := exec_next_result he
    exact h.rep_shape r hr
  · exact (exec_same he .lastSent hw : t.lastSent = s.lastSent) ▸ h.sent_shape

theorem exec_keeps_reportInv {i : Instr} {s t : State} (h : ReportInv s) (he : exec i s = .next t) : ReportInv t := by
  have hcfg : t.cfg = s.cfg := exec_same he .cfg id
  exact
    { slots_shape := fun _ hsl => hcfg ▸ exec_keeps_slotShape h.slots_shape he hsl
      rep_shape := fun _ hr => hcfg ▸ exec_keeps_repShape h he hr
      bridge_shape := hcfg ▸ exec_keeps_bridgeShape h he
      sent_shape := hcfg ▸ exec_keeps_sentShape h he }

end Sys2Proof.Machine

namespace Sys2Proof.Proofs

open Sys2Proof.Machine

/-- Settles O28: ENC_DONE writes the assembled report, whose bytes are read back one by one. -/
theorem encDoneAssemblesTheReport : Obligations.EncDoneAssemblesTheReport :=
  ⟨fun _ m sl hs hm hsl =>
    ⟨assembleReport m sl, reportBytes_assemble m sl, extract_assembleReport m sl (i := 0) (by decide),
     extract_assembleReport m sl (i := 1) (by decide), fun i hi => extract_slot m sl i hi,
     exec_of_result (i := .encDone) ⟨hs, m, sl, hm, hsl, rfl⟩⟩,
   rfl⟩

/-- Settles O48: the environment's moves write none of the registers, and each writer keeps the shapes. -/
theorem stepKeepsReportsWellShaped : Obligations.StepKeepsReportsWellShaped := by
  intro s t h hstep
  have hmove : ReportInv s.useMove := { h with }
  obtain ⟨-, ⟨-, rfl⟩ | ⟨-, rfl⟩ | ⟨bytes, i, -, -, he⟩⟩ := step_next_cases hstep
  · exact { hmove with }
  · exact { hmove with }
  · exact exec_keeps_reportInv hmove he

end Sys2Proof.Proofs
end

section
/-!
PROOFS. One cycle of the loop as a path of the sequencer (30 R110, 45 R200). Where the timer has expired, the sequencer's next
position is a function of its position alone; CYCLE is the path from the wait to the re-arm, and a run in which only the poll
context moves follows it.
-/

namespace Sys2Proof.Machine

/-! ### The sequencer's position -/

/-- Where the sequencer stands: SEQ.pc, SEQ.c and SEQ.k (10_state R31). -/
structure Position where
  label : Label
  column : Nat
  cell : Nat

/-- The sequencer's position in a state. -/
def State.position (s : State) : Position := ⟨s.seqPc, s.seqC, s.seqK⟩

/-- The position after one operation of the loop with the timer expired (30 R97, 40 R127, 43 R161, 45 R204). The start-up's
labels are no part of the loop. -/
def Position.next (c : Cfg) (p : Position) : Position :=
  match p.label with
  | .sAssert => { p with label := .sSettle1 }
  | .sSettle1 => { p with label := .sSample }
  | .sSample => { p with label := .sDeassert }
  | .sDeassert => { p with label := .sSettle2 }
  | .sSettle2 => { p with label := .sNext }
  | .sNext => { p with label := if p.column + 1 < c.ncols then .sAssert else .sPump, column := p.column + 1 }
  | .sPump => { p with label := .lLayer }
  | .lLayer => { p with label := .lEncInit }
  | .lEncInit => { p with label := .lEncCell, cell := 0 }
  | .lEncCell => { p with label := if p.cell + 1 < cellCount c then .lEncCell else .lEncDone, cell := p.cell + 1 }
  | .lEncDone => { p with label := .lCsEnter }
  | .lCsEnter => { p with label := .lCommit }
  | .lCommit => { p with label := .lPush }
  | .lPush => { p with label := .lCsExit }
  | .lCsExit => { p with label := .lRearm }
  | .lRearm => { p with label := .lWait }
  | .lWait => { p with label := .sAssert, column := 0 }
  | .bCheck | .bEnter | .bArm => p

/-- An operation of the poll context that runs in the loop with the timer expired moves the sequencer to its next position, and
no operation changes the script of the moves. -/
theorem exec_next_position {i : Instr} {s t : State} (he : exec i s = .next t) (hi : ofIrqContext i = false)
    (hboot : s.seqPc ∉ bootLabels) (hloop : s.seqBoot = false) (hexp : s.tmrExpired = true) :
    t.position = s.position.next s.cfg.val ∧ t.moves = s.moves := by
  have hx := exec_next_result he
  cases i
  case irqEnter | getReportInput | getReportUnsup | setReportLed | setReportUnsup | getDescriptor | irqExit => cases hi
  case bootCheck | bootEnter => obtain ⟨⟨-, -, hl⟩, -⟩ := hx; simp [hl, bootLabels] at hboot
  case tmrArmFirst => obtain ⟨-, hfirst, -⟩ := hx; simp [hloop] at hfirst
  case' settle => obtain ⟨⟨-, -, hl⟩, rfl⟩ | ⟨⟨-, -, hl⟩, rfl⟩ := hx
  case' tmrArmPeriod =>
    obtain ⟨⟨-, -, hl⟩ | ⟨-, -, hl⟩, -, rfl⟩ := hx
    · simp [hl, bootLabels] at hboot
  case' tmrWait =>
    obtain ⟨⟨-, -, hl⟩, hflag⟩ := hx
    obtain ⟨-, rfl⟩ := hflag.resolve_right (by simp [hexp])
  case' colNext | encInit | csEnter | csExit => obtain ⟨⟨-, -, hl⟩, rfl⟩ := hx
  case' colAssert | rowSample | colDeassert | encCellSkip | encCellEmpty | encCellOvf | pushSuppress =>
    obtain ⟨⟨-, -, hl⟩, -, rfl⟩ := hx
  case' dbfPump | layerSel | encCellSent | commit => obtain ⟨⟨-, -, hl⟩, _, -, rfl⟩ := hx
  case' pushOk | pushWouldBlock | pushHard | encCellKey => obtain ⟨⟨-, -, hl⟩, _, _, -, rfl⟩ := hx
  case' encCellMod | encDone => obtain ⟨⟨-, -, hl⟩, _, _, -, -, rfl⟩ := hx
  all_goals simp [State.position, Position.next, State.advanceCell, hl, hloop]

/-! ### Paths -/

/-- From position `p` the operations `ops` are issued in turn and lead to `q`, with no return to the wait before the end. -/
def Path (c : Cfg) (ops : List Uop) (p q : Position) : Prop :=
  match ops with
  | [] => p = q
  | u :: us => microprogram p.label = u ∧ (p.next c).label ≠ .lWait ∧ Path c us (p.next c) q

theorem path_append {c : Cfg} {as bs : List Uop} {p q r : Position} (ha : Path c as p q) (hb : Path c bs q r) :
    Path c (as ++ bs) p r := by
  induction as generalizing p with
  | nil => obtain rfl : p = q := ha; exact hb
  | cons u us ih => obtain ⟨hu, hw, hus⟩ := ha; exact ⟨hu, hw, ih hus⟩

/-- One column: six operations, after which the next column begins or the filter is pumped (40 R126, R127). -/
theorem path_column (c : Cfg) (i k : Nat) :
    Path c columnOps ⟨.sAssert, i, k⟩ ⟨if i + 1 < c.ncols then .sAssert else .sPump, i + 1, k⟩ := by
  by_cases hi : i + 1 < c.ncols <;> simp [Path, columnOps, Position.next, microprogram, hi]

/-- The columns from `i` on (40 R126). -/
theorem path_columns (c : Cfg) (k j i : Nat) (h : i + (j + 1) = c.ncols) :
    Path c (List.replicate (j + 1) columnOps).flatten ⟨.sAssert, i, k⟩ ⟨.sPump, c.ncols, k⟩ := by
  induction j generalizing i with
  | zero => simpa [← h] using path_column c i k
  | succ j ih =>
    have hcol := path_column c i k
    rw [if_pos (by omega)] at hcol
    exact path_append hcol (ih (i + 1) (by omega))

/-- The cells from `k` on (43 R169). -/
theorem path_cells (c : Cfg) (i j k : Nat) (h : k + (j + 1) = cellCount c) :
    Path c (List.replicate (j + 1) .encCell) ⟨.lEncCell, i, k⟩ ⟨.lEncDone, i, cellCount c⟩ := by
  induction j generalizing k with
  | zero => simp [Path, Position.next, microprogram, ← h]
  | succ j ih =>
    have hk : k + 1 < cellCount c := by omega
    refine ⟨rfl, ?_, ?_⟩
    · simp [Position.next, hk]
    · simpa [Position.next, hk] using ih (k + 1) (by omega)

/-- `SCAN`, from the first column (40 R126). -/
theorem path_scan (w : WfCfg) (k : Nat) :
    Path w.val (scanOps w.val) ⟨.sAssert, 0, k⟩ ⟨.lLayer, w.val.ncols, k⟩ := by
  obtain ⟨j, hj⟩ := Nat.exists_eq_add_one.2 (ncols_pos w)
  have hcols := path_columns w.val k j 0 (by omega)
  rw [← hj] at hcols
  exact path_append hcols ⟨rfl, by simp [Position.next], rfl⟩

/-- `ENCODE` (43 R169). -/
theorem path_encode (w : WfCfg) (i k : Nat) :
    Path w.val (encodeOps w.val) ⟨.lEncInit, i, k⟩ ⟨.lCsEnter, i, cellCount w.val⟩ := by
  obtain ⟨j, hj⟩ := Nat.exists_eq_add_one.2 (cellCount_pos w)
  have hcells := path_cells w.val i j 0 (by omega)
  rw [← hj] at hcells
  exact ⟨rfl, by simp [Position.next], path_append hcells ⟨rfl, by simp [Position.next], rfl⟩⟩

/-- `CYCLE` without its last operation, the re-arm. -/
def cycleBody (c : Cfg) : List Uop := .tmrWait :: scanOps c ++ .layerSel :: encodeOps c ++ transferOps

theorem cycleOps_eq (c : Cfg) : cycleOps c = cycleBody c ++ [.tmrArm] := rfl

/-- `CYCLE` leads from the wait to the re-arm (30 R110). -/
theorem path_cycle (w : WfCfg) (i k : Nat) :
    Path w.val (cycleBody w.val) ⟨.lWait, i, k⟩ ⟨.lRearm, w.val.ncols, cellCount w.val⟩ := by
  have hwait : Path w.val [.tmrWait] ⟨.lWait, i, k⟩ ⟨.sAssert, 0, k⟩ := ⟨rfl, by simp [Position.next], rfl⟩
  have hlayer : Path w.val [.layerSel] ⟨.lLayer, w.val.ncols, k⟩ ⟨.lEncInit, w.val.ncols, k⟩ :=
    ⟨rfl, by simp [Position.next], rfl⟩
  have htransfer :
      Path w.val transferOps ⟨.lCsEnter, w.val.ncols, cellCount w.val⟩ ⟨.lRearm, w.val.ncols, cellCount w.val⟩ := by
    simp [Path, transferOps, Position.next, microprogram]
  exact path_append (path_append (path_append hwait (path_scan w k)) (path_append hlayer (path_encode w _ k))) htransfer

/-! ### Runs that follow a path -/

/-- The poll context is in the loop at position `p`, and the next `n` moves are its own. -/
structure InLoop (w : WfCfg) (n : Nat) (p : Position) (s : State) : Prop where
  inv : Inv s
  cfg : s.cfg = w
  idle : s.inIrq = false
  running : s.booted = false
  loop : s.seqBoot = false
  polls : pollsNext n s
  position : s.position = p

/-- The run from `s` issues the operations `ops` and comes to `t`. -/
def RunsOps (ops : List Uop) (s t : State) : Prop := opsIssued ops.length s = ops ∧ runSteps ops.length s = .next t

theorem runsOps_cons {s t u : State} {ops : List Uop} (hs : step s = .next t) (h : RunsOps ops t u) :
    RunsOps (microprogram s.seqPc :: ops) s u := by
  obtain ⟨hops, hrun⟩ := h
  exact ⟨by simp only [List.length_cons, opsIssued, hs, hops], by simp only [List.length_cons, runSteps, hs, hrun]⟩

theorem runsOps_append {s t u : State} {as bs : List Uop} (ha : RunsOps as s t) (hb : RunsOps bs t u) :
    RunsOps (as ++ bs) s u := by
  induction as generalizing s with
  | nil => obtain ⟨-, hrun⟩ := ha; cases hrun; exact hb
  | cons a as ih =>
    obtain ⟨hops, hrun⟩ := ha
    simp only [List.length_cons, opsIssued, runSteps] at hops hrun
    cases hs : step s with
    | next v =>
      rw [hs] at hops hrun
      injection hops with ha hops
      exact ha ▸ runsOps_cons hs (ih ⟨hops, hrun⟩)
    | fault f => simp [hs] at hrun
    | refused r => simp [hs] at hrun

/-- A step in the loop with the timer expired executes a form of the label's operation and moves to the next position. -/
theorem inLoop_step {w : WfCfg} {n : Nat} {p : Position} {s : State} (h : InLoop w (n + 1) p s)
    (hexp : s.tmrExpired = true) :
    ∃ i t, i.uop = microprogram p.label ∧ exec i s.useMove = .next t ∧ step s = .next t ∧ InLoop w n (p.next w.val) t := by
  obtain ⟨hinv, rfl, hidle, hrun, hloop, ⟨rest, hmoves⟩, rfl⟩ := h
  obtain ⟨i, t, hi, he⟩ := poll_issues_completing (inv_useMove hinv) hidle hrun
  have huop : i.uop = microprogram s.seqPc := uop_of_issues (s := s.useMove) hi
  have hctx : ofIrqContext i = false := by rw [ofIrqContext, huop]; cases s.seqPc <;> rfl
  have hboot : s.seqPc ∉ bootLabels := fun hl => by simp [hinv.sequencer.boot_phase hl] at hloop
  have hstep : step s = .next t := by
    rw [step_of_move hrun, nextMove_of_scripted hmoves (by simp [moveEnabled, pollEnabled, hidle, hrun]),
      takeMove_of_issues (by simp) (by simp) hi, he]
  obtain ⟨hpos, hscript⟩ := exec_next_position he hctx hboot hloop hexp
  have not_irq : ¬Reg.inIrq.Writer i := by rintro (rfl | rfl) <;> cases hctx
  have not_enter : ¬Reg.booted.Writer i := by
    rintro rfl
    obtain ⟨⟨-, -, hl⟩, -⟩ := exec_next_result he
    exact hboot (hl ▸ by decide)
  have not_first : ¬Reg.seqBoot.Writer i := by
    rintro rfl
    obtain ⟨-, hfirst, -⟩ := exec_next_result he
    exact Bool.noConfusion (hloop.symm.trans hfirst)
  exact
    ⟨i, t, huop, he, hstep,
      { inv := exec_keeps_inv (inv_useMove hinv) he
        cfg := exec_same he .cfg id
        idle := (exec_same he .inIrq not_irq).trans hidle
        running := (exec_same he .booted not_enter).trans hrun
        loop := (exec_same he .seqBoot not_first).trans hloop
        polls := ⟨rest, hscript.trans (congrArg List.tail hmoves)⟩
        position := hpos }⟩

/-- A run in which only the poll context moves follows the path from its position. The timer stays expired up to the wait. -/
theorem inLoop_runs_path {w : WfCfg} {n : Nat} {ops : List Uop} {p q : Position} {s : State}
    (h : InLoop w (ops.length + n) p s) (hexp : s.tmrExpired = true) (hpath : Path w.val ops p q) :
    ∃ t, RunsOps ops s t ∧ InLoop w n q t ∧ t.tmrExpired = true := by
  induction ops generalizing p s with
  | nil =>
    obtain rfl : p = q := hpath
    exact ⟨s, ⟨rfl, rfl⟩, by simpa using h, hexp⟩
  | cons u us ih =>
    obtain ⟨hu, hwait, hpath⟩ := hpath
    rw [List.length_cons, Nat.succ_add] at h
    obtain ⟨i, t, -, -, hstep, ht⟩ := inLoop_step h hexp
    have hlabel : t.seqPc ≠ .lWait := fun hl => hwait (ht.position ▸ hl)
    obtain ⟨v, hruns, hv, hvexp⟩ := ih ht (ht.inv.timer.cycle_expired ht.loop hlabel) hpath
    have hpc : microprogram s.seqPc = u := by rw [← hu, ← h.position]; rfl
    exact ⟨v, hpc ▸ runsOps_cons hstep hruns, hv, hvexp⟩

/-- Both forms of TMR_ARM clear the flag (45 R202, R213). -/
theorem expired_cleared_of_tmrArm {i : Instr} {s t : State} (hi : i.uop = .tmrArm) (he : exec i s = .next t) :
    t.tmrExpired = false := by
  have hx := exec_next_result he
  cases i <;> simp only [Instr.uop, reduceCtorEq] at hi
  case tmrArmFirst => obtain ⟨-, -, rfl⟩ := hx; rfl
  case tmrArmPeriod => obtain ⟨-, -, rfl⟩ := hx; rfl

end Sys2Proof.Machine

namespace Sys2Proof.Proofs

open Sys2Proof.Machine

/-- Settles O58: the run follows the path of CYCLE from the wait to the re-arm, whose step leads back to the wait. -/
theorem cycleIssuesTheFixedExpansion : Obligations.CycleIssuesTheFixedExpansion := by
  intro s h hs hexp hpolls
  have ⟨hidle, hrun, hpc⟩ := hs
  have hloop : s.seqBoot = false := h.sequencer.loop_phase (by simp [hpc, loopLabels])
  rw [cycleOps_eq, List.length_append] at hpolls
  have hstart : InLoop s.cfg ((cycleBody s.cfg.val).length + 1) ⟨.lWait, s.seqC, s.seqK⟩ s :=
    ⟨h, rfl, hidle, hrun, hloop, hpolls, by rw [State.position, hpc]⟩
  obtain ⟨t, hbody, ht, htexp⟩ := inLoop_runs_path hstart hexp (path_cycle s.cfg _ _)
  obtain ⟨i, u, hi, he, hstep, hu⟩ := inLoop_step ht htexp
  have hlast : RunsOps [.tmrArm] t u := by
    have hpc : t.seqPc = .lRearm := congrArg Position.label ht.position
    simpa [hpc, microprogram] using runsOps_cons hstep (ops := []) ⟨rfl, rfl⟩
  obtain ⟨hops, hsteps⟩ := runsOps_append hbody hlast
  rw [cycleOps_eq]
  exact ⟨hops, u, hsteps, congrArg Position.label hu.position, expired_cleared_of_tmrArm hi he⟩

end Sys2Proof.Proofs
end

section
/-!
PROOFS. The matrix scanner (40_matrix_scanner): its operations at their labels, what a sample stores, and a whole scan as a run
of the poll context. The state after the first `i` columns of a scan is written out in closed form; six steps lead from one such
state to the next, and DBF_PUMP ends the scan.
-/

namespace Sys2Proof.Machine

/-! ### Steps of the poll context -/

/-- A step whose move is the poll context's executes the instruction the label's record decodes to. -/
theorem step_of_poll {s : State} {i : Instr} (hrun : s.booted = false) (hpoll : nextMove s = .poll)
    (hi : Issues .poll s.useMove i) : step s = exec i s.useMove := by
  rw [step_of_move hrun, hpoll]
  exact takeMove_of_issues (by simp) (by simp) hi

/-- With the poll context's moves scripted, a step at a label that issues `i` takes whatever `i` can do. -/
theorem step_of_scripted_poll {s t : State} {l : Label} {i : Instr} {rest : List Move} (hs : pollAt l s)
    (hmoves : s.moves = .poll :: rest) (hi : issueRecord (microprogram l) s.useMove = .ok (encode i))
    (hd : decode (encode i) = .ok i) (hx : ExecResult i s.useMove t) : step s = .next t :=
  (step_of_issued hs hmoves hi hd).trans (exec_of_result hx)

theorem runSteps_cons {n : Nat} {s t : State} {o : Out} (hs : step s = .next t) (h : runSteps n t = o) :
    runSteps (n + 1) s = o := by simp only [runSteps, hs, h]

/-! ### What a sample reads and stores -/

theorem rowAnswer_of_scripted {s : State} {bits : Column s.cfg} {rest : List (Column s.cfg)} (h : s.rowsIn = bits :: rest) :
    rowAnswer s = bits := by simp [rowAnswer, nextRows, h]

/-- A step of the poll context at S_SAMPLE is ROW_SAMPLE (40 R124). -/
theorem rowSample_of_step {s t : State} (hlabel : s.seqPc = .sSample) (hpoll : nextMove s = .poll)
    (hstep : step s = .next t) : ExecResult .rowSample s.useMove t := by
  obtain ⟨hrun, -⟩ := step_next_cases hstep
  rw [step_of_poll hrun hpoll (issues_poll hlabel rfl rfl)] at hstep
  exact exec_next_result hstep

/-- ROW_SAMPLE leaves the presented levels in column SEQ.c of RAW (40 R124). -/
theorem rawCells_of_rowSample {s t : State} (h : ExecResult .rowSample s t) {r : Nat} (hr : r < s.cfg.val.nrows) :
    ∃ column, t.rawCells[s.seqC]? = some (some column) ∧ column[r]? = some (rowAnswer s)[r] := by
  obtain ⟨-, hc, rfl⟩ := h
  exact ⟨(rowAnswer s).toList, by simp [State.rawCells, hc], by simp [hr]⟩

/-! ### RAW while it is sampled -/

/-- RAW with the first `i` columns of `m` sampled (10_state R23). -/
def sampledRaw {w : WfCfg} (m : MatrixOf w) (i : Nat) : RawOf w :=
  Vector.ofFn fun c => if c.val < i then some m[c] else none

theorem sampledRaw_zero {w : WfCfg} (m : MatrixOf w) : sampledRaw m 0 = Vector.replicate w.val.ncols none := by
  ext c hc : 1
  simp [sampledRaw]

theorem sampledRaw_all {w : WfCfg} (m : MatrixOf w) : sampledRaw m w.val.ncols = m.map some := by
  ext c hc : 1
  simp [sampledRaw]

/-- Sampling the next column. -/
theorem sampledRaw_succ {w : WfCfg} (m : MatrixOf w) {i : Nat} (hi : i < w.val.ncols) :
    (sampledRaw m i).setIfInBounds i (some m[i]) = sampledRaw m (i + 1) := by
  ext c hc : 1
  rw [Vector.getElem_setIfInBounds hc]
  obtain rfl | hne := eq_or_ne i c
  · simp [sampledRaw]
  · have hlt : c < i ↔ c < i + 1 := by omega
    simp [sampledRaw, hne, hlt]

/-! ### The steps of a column -/

/-- What a scan works on before it reaches the pump: the lines, RAW, the sequencer's column, and the environment's scripts. -/
structure ScanRegs (w : WfCfg) where
  col : Vector Bool w.val.ncols
  raw : RawOf w
  seqPc : Label
  seqC : Nat
  events : List Event
  moves : List Move
  rowsIn : List (Column w)
  draws : Nat

/-- `s` with the registers of a scan at `r`; every other register is that of `s`. -/
def State.withScan (s : State) (r : ScanRegs s.cfg) : State :=
  { s with
    col := r.col, raw := r.raw, seqPc := r.seqPc, seqC := r.seqC, events := r.events, moves := r.moves, rowsIn := r.rowsIn,
    draws := r.draws }

/-- Where a scan stands when it comes to column `i`: at the column's start, or past the last one at the pump (40 R127). -/
def columnLabel (c : Cfg) (i : Nat) : Label := if i < c.ncols then .sAssert else .sPump

/-- The registers of a scan after one step of the poll context at a label of a column (40 R122 to R127). -/
def ScanRegs.next {w : WfCfg} (r : ScanRegs w) : ScanRegs w :=
  let r := { r with moves := r.moves.tail, draws := r.draws + 1 }
  match r.seqPc with
  | .sAssert =>
    { r with col := r.col.setIfInBounds r.seqC true, events := r.events ++ [.pCol r.seqC true], seqPc := .sSettle1 }
  | .sSettle1 => { r with seqPc := .sSample }
  | .sSample =>
    { r with
      raw := r.raw.setIfInBounds r.seqC (some (nextRows r.rowsIn r.draws)), rowsIn := r.rowsIn.tail, draws := r.draws + 1,
      seqPc := .sDeassert }
  | .sDeassert =>
    { r with col := r.col.setIfInBounds r.seqC false, events := r.events ++ [.pCol r.seqC false], seqPc := .sSettle2 }
  | .sSettle2 => { r with seqPc := .sNext }
  | .sNext => { r with seqC := r.seqC + 1, seqPc := columnLabel w.val (r.seqC + 1) }
  | .sPump | .bCheck | .bEnter | .bArm | .lWait | .lLayer | .lEncInit | .lEncCell | .lEncDone | .lCsEnter | .lCommit
  | .lPush | .lCsExit | .lRearm => r

/-- At a label of a column, with the poll context to move, a step changes the registers of the scan and no other. -/
theorem step_withScan {s : State} {r : ScanRegs s.cfg} {rest : List Move} (l : Label) (hidle : s.inIrq = false)
    (hrun : s.booted = false) (hcolumn : l ∈ columnLabels) (hl : r.seqPc = l) (hc : r.seqC < s.cfg.val.ncols)
    (hmoves : r.moves = .poll :: rest) : step (s.withScan r) = .next (s.withScan r.next) := by
  obtain ⟨col, raw, l, c, es, moves, rows, d⟩ := r
  subst hl
  have hat {moves : List Move} {d : Nat} : pollAt l (s.withScan ⟨col, raw, l, c, es, moves, rows, d⟩) := ⟨hidle, hrun, rfl⟩
  simp only [columnLabels, List.mem_cons, List.not_mem_nil, or_false] at hcolumn
  obtain rfl | rfl | rfl | rfl | rfl | rfl := hcolumn
  · exact step_of_scripted_poll (i := .colAssert) hat hmoves rfl rfl ⟨hat, hc, rfl⟩
  · exact step_of_scripted_poll (i := .settle) hat hmoves rfl rfl (.inl ⟨hat, rfl⟩)
  · exact step_of_scripted_poll (i := .rowSample) hat hmoves rfl rfl ⟨hat, hc, rfl⟩
  · exact step_of_scripted_poll (i := .colDeassert) hat hmoves rfl rfl ⟨hat, hc, rfl⟩
  · exact step_of_scripted_poll (i := .settle) hat hmoves rfl rfl (.inr ⟨hat, rfl⟩)
  · exact step_of_scripted_poll (i := .colNext) hat hmoves rfl rfl ⟨hat, rfl⟩

/-- The six steps of one column (40 R126). -/
theorem runSteps_column {s : State} {r : ScanRegs s.cfg} {rest : List Move} (hidle : s.inIrq = false)
    (hrun : s.booted = false) (hl : r.seqPc = .sAssert) (hc : r.seqC < s.cfg.val.ncols)
    (hmoves : r.moves = List.replicate 6 .poll ++ rest) :
    runSteps 6 (s.withScan r) = .next (s.withScan (ScanRegs.next^[6] r)) := by
  obtain ⟨col, raw, l, c, es, moves, rows, d⟩ := r
  subst hl hmoves
  refine runSteps_cons (step_withScan .sAssert hidle hrun (by decide) rfl hc rfl) ?_
  refine runSteps_cons (step_withScan .sSettle1 hidle hrun (by decide) rfl hc rfl) ?_
  refine runSteps_cons (step_withScan .sSample hidle hrun (by decide) rfl hc rfl) ?_
  refine runSteps_cons (step_withScan .sDeassert hidle hrun (by decide) rfl hc rfl) ?_
  refine runSteps_cons (step_withScan .sSettle2 hidle hrun (by decide) rfl hc rfl) ?_
  exact runSteps_cons (step_withScan .sNext hidle hrun (by decide) rfl hc rfl) rfl

/-! ### A scan -/

/-- Column `i` of a scan: its line is asserted and released (20_memory R80). -/
def columnEvents (i : Nat) : List Event := [.pCol i true, .pCol i false]

theorem scanEvents_eq (c : Cfg) : scanEvents c = (List.range c.ncols).flatMap columnEvents := rfl

/-- The registers of the scan that began at `s`, between two columns: the first `i` columns of `m` are sampled and every line is
released. -/
def State.scanned (s : State) (m : MatrixOf s.cfg) (moves : List Move) (rows : List (Column s.cfg)) (i : Nat) :
    ScanRegs s.cfg where
  col := Vector.replicate s.cfg.val.ncols false
  raw := sampledRaw m i
  seqPc := columnLabel s.cfg.val i
  seqC := i
  events := s.events ++ (List.range i).flatMap columnEvents
  moves := List.replicate (6 * (s.cfg.val.ncols - i) + 1) .poll ++ moves
  rowsIn := m.toList.drop i ++ rows
  draws := s.draws + 7 * i

theorem scanned_zero (s : State) (m : MatrixOf s.cfg) (moves : List Move) (rows : List (Column s.cfg)) :
    s.scanned m moves rows 0 =
      ⟨Vector.replicate s.cfg.val.ncols false, Vector.replicate s.cfg.val.ncols none, .sAssert, 0, s.events,
        List.replicate (6 * s.cfg.val.ncols + 1) .poll ++ moves, m.toList ++ rows, s.draws⟩ := by
  simp [State.scanned, sampledRaw_zero, columnLabel, ncols_pos]

/-- Six of the moves scripted for the columns from `i` on are those of column `i`. -/
theorem scannedMoves_eq {s : State} (m : MatrixOf s.cfg) (moves : List Move) (rows : List (Column s.cfg)) {i : Nat}
    (hi : i < s.cfg.val.ncols) :
    (s.scanned m moves rows i).moves = List.replicate 6 .poll ++ (s.scanned m moves rows (i + 1)).moves := by
  have hcount : 6 * (s.cfg.val.ncols - i) + 1 = 6 + (6 * (s.cfg.val.ncols - (i + 1)) + 1) := by omega
  simp only [State.scanned, hcount, List.replicate_add, List.append_assoc]

/-- The six operations of column `i` (40 R126). -/
theorem next_scanned {s : State} (m : MatrixOf s.cfg) (moves : List Move) (rows : List (Column s.cfg)) {i : Nat}
    (hi : i < s.cfg.val.ncols) :
    ScanRegs.next^[6] (s.scanned m moves rows i) = s.scanned m moves rows (i + 1) := by
  have hdrop : m.toList.drop i = m[i] :: m.toList.drop (i + 1) := by
    rw [List.drop_eq_getElem_cons (by simpa using hi), Vector.getElem_toList]
  have hlabel : columnLabel s.cfg.val i = .sAssert := if_pos hi
  have hmoves := scannedMoves_eq m moves rows hi
  simp only [State.scanned] at hmoves
  simp [State.scanned, ScanRegs.next, hlabel, hdrop, hmoves, nextRows, sampledRaw_succ m hi, List.range_succ, columnEvents,
    Nat.mul_succ, Nat.add_assoc]

/-- The first `i` columns of a scan are `6 * i` steps of the poll context (40 R126). -/
theorem runSteps_columns {s : State} (hidle : s.inIrq = false) (hrun : s.booted = false) (m : MatrixOf s.cfg)
    (moves : List Move) (rows : List (Column s.cfg)) {i : Nat} (hi : i ≤ s.cfg.val.ncols) :
    runSteps (6 * i) (s.withScan (s.scanned m moves rows 0)) = .next (s.withScan (s.scanned m moves rows i)) := by
  induction i with
  | zero => rfl
  | succ i ih =>
    rw [Nat.mul_succ, runSteps_of_next (ih (by omega)), ← next_scanned m moves rows hi]
    exact runSteps_column hidle hrun (if_pos hi) hi (scannedMoves_eq m moves rows hi)

/-- DBF_PUMP after the last column hands the sampled matrix to the filter (40 R130, 41 R141). -/
theorem step_scanned {s : State} (hidle : s.inIrq = false) (hrun : s.booted = false) (m : MatrixOf s.cfg)
    (moves : List Move) (rows : List (Column s.cfg)) :
    step (s.withScan (s.scanned m moves rows s.cfg.val.ncols)) =
      .next { s with
        dbs := (dbfAnswer s.cfg.val s.dbs m).1, deb := some (dbfAnswer s.cfg.val s.dbs m).2,
        col := Vector.replicate s.cfg.val.ncols false, raw := Vector.replicate s.cfg.val.ncols none,
        seqC := s.cfg.val.ncols, seqPc := if s.seqBoot = true then .bCheck else .lLayer,
        events := s.events ++ scanEvents s.cfg.val ++ [.dbfStep],
        moves := moves, rowsIn := rows, draws := s.draws + 7 * s.cfg.val.ncols + 1 } := by
  have hlabel : columnLabel s.cfg.val s.cfg.val.ncols = .sPump := if_neg (Nat.lt_irrefl _)
  have hmoves : List.replicate (6 * (s.cfg.val.ncols - s.cfg.val.ncols) + 1) .poll ++ moves = .poll :: moves := by simp
  have hrows : m.toList.drop s.cfg.val.ncols ++ rows = rows := by simp
  simp only [State.scanned, hlabel, hmoves, hrows, sampledRaw_all, ← scanEvents_eq]
  exact step_of_scripted_poll (i := .dbfPump) ⟨hidle, hrun, rfl⟩ rfl rfl rfl ⟨⟨hidle, hrun, rfl⟩, m, rfl, rfl⟩

end Sys2Proof.Machine

namespace Sys2Proof.Proofs

open Sys2Proof.Machine

/-- Settles O13: the operations run at their label on a column of the matrix, and no other label issues them. -/
theorem columnDriveOperations : Obligations.ColumnDriveOperations := by
  refine ⟨fun s hs hc => exec_of_result ⟨hs, hc, rfl⟩, fun s hs hc => exec_of_result ⟨hs, hc, rfl⟩, ?_, ?_, rfl, rfl⟩
  · intro l
    cases l <;> decide
  · intro l
    cases l <;> decide

/-- Settles O14: SETTLE goes to the next label from either of its two places, and no other label issues it. -/
theorem settleChangesOnlyThePosition : Obligations.SettleChangesOnlyThePosition := by
  refine ⟨fun s hs => exec_of_result (.inl ⟨hs, rfl⟩), fun s hs => exec_of_result (.inr ⟨hs, rfl⟩), ?_, rfl⟩
  intro l
  cases l <;> decide

/-- Settles O15: a sample is a column of NROWS levels, the scripted one where there is a script. -/
theorem rowSampleStoresThePresentedColumn : Obligations.RowSampleStoresThePresentedColumn :=
  ⟨fun _ hs hc => exec_of_result ⟨hs, hc, rfl⟩, fun s => (rowAnswer s).length_toList, fun _ _ _ h => rowAnswer_of_scripted h,
    rfl⟩

/-- Settles O16: COL_NEXT looks at SEQ.c after the increment. -/
theorem colNextComparesTheNewColumn : Obligations.ColNextComparesTheNewColumn :=
  ⟨fun _ hs => exec_of_result ⟨hs, rfl⟩, rfl⟩

/-- Settles O60: the step is ROW_SAMPLE, and under ENV_IDEAL the levels it stores are the switches'. -/
theorem idealSamplesShowTheSwitches : Obligations.IdealSamplesShowTheSwitches := by
  intro closed s t r hideal hlabel hpoll hr hstep
  have hsample := rowSample_of_step hlabel hpoll hstep
  obtain ⟨⟨-, hrun, -⟩, -⟩ := id hsample
  obtain ⟨column, hcolumn, hlevel⟩ := rawCells_of_rowSample hsample hr
  exact ⟨column, hcolumn, hlevel.trans (congrArg some (hideal hlabel hrun hpoll r hr))⟩

/-- Settles O51: the columns one by one, then the pump. -/
theorem scanDeliversTheSampledMatrix : Obligations.ScanDeliversTheSampledMatrix := by
  intro s m moves rows hs hc hcol hraw hmoves hrows
  obtain ⟨hidle, hrun, hl⟩ := hs
  have hstart : s.withScan (s.scanned m moves rows 0) = s := by
    rw [scanned_zero, ← hcol, ← hraw, ← hl, ← hmoves, ← hrows]
    simp only [State.withScan, ← hc]
  have hcolumns := runSteps_columns hidle hrun m moves rows le_rfl
  have hpump := step_scanned hidle hrun m moves rows
  rw [hstart] at hcolumns
  rw [← hcol, ← hraw] at hpump
  exact ⟨_, (runSteps_of_next hcolumns).trans (runSteps_cons hpump rfl)⟩

end Sys2Proof.Proofs
end

section
/-!
PROOFS. The debounce filter interface (41_debounce_interface): what the pump does, and the shape of the filter's matrix.
-/

namespace Sys2Proof.Machine

/-! ### The shape of a matrix, read as lists of cells -/

@[simp] theorem length_gridCells {α : Type} {ncols nrows : Nat} (m : Grid α ncols nrows) :
    (gridCells m).length = ncols := by simp [gridCells]

theorem length_of_mem_gridCells {α : Type} {ncols nrows : Nat} {m : Grid α ncols nrows} {column : List α}
    (h : column ∈ gridCells m) : column.length = nrows := by
  obtain ⟨v, -, rfl⟩ := List.mem_map.1 h
  exact v.length_toList

end Sys2Proof.Machine

namespace Sys2Proof.Proofs

open Sys2Proof.Machine

/-- Settles O17: the pump runs at its label once RAW holds a whole matrix, and the filter's matrix is a grid of the scanned
shape. -/
theorem dbfPumpHandsOverTheWholeMatrix : Obligations.DbfPumpHandsOverTheWholeMatrix := by
  refine ⟨fun _ m hs hraw => exec_of_result ⟨hs, m, hraw, rfl⟩,
    fun _ _ => ⟨length_gridCells _, fun _ => length_of_mem_gridCells⟩, ?_, rfl⟩
  intro l
  cases l <;> decide

end Sys2Proof.Proofs
end

section
/-!
PROOFS. The layer resolver (42_layer_resolver): what LAYER_SEL reads, and that no operation reads LED (R153). Two runs of a shared
operation that agree on what it reads end alike; the rules are stated for any view `f` of the next state.
-/

namespace Sys2Proof.Machine

/-! ### Two runs of a shared operation, seen through a view of the next state -/

section TwoRuns

variable {f : State → State} {s s' : State}

theorem mapNext_ite_congr {c : Prop} [Decidable c] {k k' stop : Out} (hk : mapNext f k' = mapNext f k) :
    mapNext f (if c then k' else stop) = mapNext f (if c then k else stop) := by
  by_cases hc : c
  · simpa only [if_pos hc] using hk
  · simp only [if_neg hc]

/-- The guard of the poll context reads IN_IRQ, BOOTED and SEQ.pc (45 R200). -/
theorem mapNext_issuedAt_congr {ls : List Label} {k k' : Out} (hirq : s'.inIrq = s.inIrq) (hboot : s'.booted = s.booted)
    (hpc : s'.seqPc = s.seqPc) (hk : mapNext f k' = mapNext f k) :
    mapNext f (issuedAt ls s' k') = mapNext f (issuedAt ls s k) := by
  simp only [issuedAt, pollEnabled, hirq, hboot, hpc]
  exact mapNext_ite_congr (mapNext_ite_congr hk)

/-- The guard of a request reads IN_IRQ and BOOTED (44 R180). -/
theorem mapNext_inHandler_congr {k k' : Out} (hirq : s'.inIrq = s.inIrq) (hboot : s'.booted = s.booted)
    (hk : mapNext f k' = mapNext f k) : mapNext f (inHandler s' k') = mapNext f (inHandler s k) := by
  simp only [inHandler, handlerRuns, hirq, hboot]
  exact mapNext_ite_congr hk

theorem mapNext_selected_congr {b : Bool} {k k' : Out} (hk : mapNext f k' = mapNext f k) :
    mapNext f (selected b k') = mapNext f (selected b k) := mapNext_ite_congr hk

/-- Whether a push is made depends on REP and LAST_SENT (45 R207, R208). -/
theorem mapNext_pushChanged_congr {k k' : Report → State} (hrep : s'.rep = s.rep) (hsent : s'.lastSent = s.lastSent)
    (hk : ∀ r, f ((k' r).goto .lCsExit) = f ((k r).goto .lCsExit)) :
    mapNext f (pushChanged s' k') = mapNext f (pushChanged s k) := by
  simp only [pushChanged, changedFrom, hrep, hsent]
  cases s.rep with
  | none => rfl
  | some r => exact mapNext_selected_congr (congrArg Host.Outcome.next (hk r))

/-- ENC_CELL reads what its guard reads and what picks its form (43 R161). -/
theorem mapNext_encCell_congr {k k' : EncForm → Out} (hirq : s'.inIrq = s.inIrq) (hboot : s'.booted = s.booted)
    (hpc : s'.seqPc = s.seqPc) (hform : encForm s' = encForm s) (hk : ∀ form, mapNext f (k' form) = mapNext f (k form)) :
    mapNext f (encCell s' k') = mapNext f (encCell s k) := by
  refine mapNext_issuedAt_congr hirq hboot hpc ?_
  rw [hform]
  cases encForm s with
  | error e => rfl
  | ok form => exact hk form

end TwoRuns

/-! ### LED is not read -/

/-- The state with LED overwritten. -/
def State.setLed (s : State) (l : Leds) : State := { s with led := l }

@[simp] theorem setLed_modifier (s : State) (l : Leds) : (s.setLed l).modifier = s.modifier := rfl
@[simp] theorem setLed_slots (s : State) (l : Leds) : (s.setLed l).slots = s.slots := rfl
@[simp] theorem setLed_rep (s : State) (l : Leds) : (s.setLed l).rep = s.rep := rfl
@[simp] theorem setLed_tmrExpired (s : State) (l : Leds) : (s.setLed l).tmrExpired = s.tmrExpired := rfl

theorem wholeRaw_setLed (s : State) (l : Leds) : wholeRaw (s.setLed l).raw = wholeRaw s.raw := rfl

theorem readBoot_setLed (s : State) (l : Leds) :
    readDeb (s.setLed l).deb (s.setLed l).cfg.val.bootPos (bootPos_inside _) =
      readDeb s.deb s.cfg.val.bootPos (bootPos_inside _) := rfl

theorem readFn_setLed (s : State) (l : Leds) :
    readDeb (s.setLed l).deb (s.setLed l).cfg.val.fnPos (fnPos_inside _) =
      readDeb s.deb s.cfg.val.fnPos (fnPos_inside _) := rfl

/-- Two runs that differ in LED alone end in the same way, in states that differ in LED at most (42 R153). LED is in no guard; in
each case what is left is the split on the registers the operation does read. -/
theorem exec_setLed (i : Instr) (s : State) (l l0 : Leds) :
    mapNext (·.setLed l0) (exec i (s.setLed l)) = mapNext (·.setLed l0) (exec i s) := by
  cases i
  case irqEnter => exact mapNext_ite_congr (c := irqEnabled s = true) rfl
  case getReportInput | setReportLed | getDescriptor | irqExit => exact mapNext_inHandler_congr rfl rfl rfl
  case getReportUnsup | setReportUnsup => exact mapNext_inHandler_congr rfl rfl (mapNext_selected_congr rfl)
  case encCellSkip | encCellEmpty | encCellSent | encCellKey | encCellOvf =>
    exact mapNext_encCell_congr rfl rfl rfl rfl fun form => by cases form <;> rfl
  case encCellMod =>
    refine mapNext_encCell_congr rfl rfl rfl rfl fun form => ?_
    cases form
    case modifier mask => simp only [setLed_modifier]; cases s.modifier <;> rfl
    all_goals rfl
  all_goals refine mapNext_issuedAt_congr rfl rfl rfl ?_
  case settle | colNext | bootEnter | encInit | csEnter | csExit => rfl
  case colAssert | colDeassert | rowSample => exact mapNext_ite_congr (c := s.seqC < s.cfg.val.ncols) rfl
  case tmrArmFirst | tmrArmPeriod => exact mapNext_selected_congr rfl
  case pushOk | pushWouldBlock | pushHard => exact mapNext_pushChanged_congr rfl rfl fun _ => rfl
  case tmrWait => cases he : s.tmrExpired <;> simp only [setLed_tmrExpired, he] <;> rfl
  case dbfPump => rw [wholeRaw_setLed]; cases wholeRaw s.raw <;> rfl
  case bootCheck => rw [readBoot_setLed]; cases readDeb s.deb _ _ <;> rfl
  case layerSel => rw [readFn_setLed]; cases readDeb s.deb _ _ <;> rfl
  case encDone => simp only [setLed_modifier, setLed_slots]; cases s.modifier <;> cases s.slots <;> rfl
  case commit => rw [setLed_rep]; cases s.rep <;> rfl
  case pushSuppress =>
    rw [setLed_rep]
    cases s.rep with
    | none => rfl
    | some r => exact mapNext_selected_congr rfl

/-! ### LAYER_SEL -/

/-- DEB[FN_POS] picks the table (42 R150). -/
theorem exec_layerSel_of_cell {s : State} {m : MatrixOf s.cfg} {b : Bool} (hs : pollAt .lLayer s) (hm : s.deb = some m)
    (hb : arrayAt m s.cfg.val.fnPos = some b) :
    exec .layerSel s = .next { s with layer := some (if b then .fn else .normal), seqPc := .lEncInit } :=
  exec_of_result ⟨hs, b, readDeb_of_arrayAt hm hb _, rfl⟩

/-- The LAYER there was is not read, and where the operation completes it is overwritten (42 R151). -/
theorem exec_layerSel_any_layer (s : State) (layer : Option Layer) :
    exec .layerSel { s with layer := layer } = exec .layerSel s := rfl

end Sys2Proof.Machine

namespace Sys2Proof.Proofs

open Sys2Proof.Machine

/-- Settles O21: DEB[FN_POS] decides the next state, whatever LAYER was. -/
theorem layerSelectReadsOneCell : Obligations.LayerSelectReadsOneCell := by
  refine ⟨fun _ _ => exec_layerSel_of_cell, fun _ _ => exec_layerSel_of_cell, exec_layerSel_any_layer, ?_, rfl⟩
  intro l
  cases l <;> decide

/-- Settles O44: the two runs are those of `exec_setLed`. -/
theorem nothingReadsTheLeds : Obligations.NothingReadsTheLeds := exec_setLed

end Sys2Proof.Proofs
end

section
/-!
PROOFS. The operations of the encoder (43_report_encoder): the form that a visited cell selects and what it makes of MOD and SLOT
(R160 to R167), and that no two forms run at one state.
-/

namespace Sys2Proof.Machine

/-! ### The first empty slot -/

/-- The first empty slot is the empty one with no empty slot before it (00_scope R12). -/
theorem firstEmpty_eq {sl : Slots} {n : Nat} (hn : n < 6) (hbefore : ∀ i (h : i < n), sl[i] ≠ 0x00) (hempty : sl[n] = 0x00) :
    firstEmpty sl = n :=
  (List.findIdx_eq (by simpa using hn)).2
    ⟨by simpa using hempty, fun i hi => by simpa using hbefore i hi⟩

theorem slotsFull_of_empty {sl : Slots} {n : Nat} (hn : n < 6) (hempty : sl[n] = 0x00) : slotsFull sl = false := by
  rw [Bool.eq_false_iff, ne_eq, slotsFull_iff]
  exact fun hfull => hfull n hn hempty

/-- A key is put at the first empty slot and at no other (43 R166). -/
theorem putKey_eq_set {sl : Slots} {n : Nat} (kc : Byte) (hn : n < 6) (hbefore : ∀ i (h : i < n), sl[i] ≠ 0x00)
    (hempty : sl[n] = 0x00) : putKey sl kc = sl.set n kc := by
  rw [putKey, firstEmpty_eq hn hbefore hempty]
  ext i hi : 1
  rw [Vector.getElem_setIfInBounds, Vector.getElem_set]

/-- Slots filled with a Sentinel are full (10_state R40, 43 R164). -/
theorem slotsFull_filled_sentinel (w : WfCfg) {kc : Byte} (hc : classOf w.val kc = .sentinel) : slotsFull (filled kc) = true :=
  (slotsFull_iff _).2 fun i hi => by simpa using ne_zero_of_class w (by simp [hc])

/-! ### The form that an asserted cell selects (43 R161) -/

section Forms

variable {s : State} {kc mask : Byte} {sl : Slots}

theorem encForm_of_empty (hk : visitsKey kc s) (hc : classOf s.cfg.val kc = .empty) : encForm s = .ok .empty :=
  (encForm_of_visitsKey hk).trans (by simp only [encFormOfKey, hc])

theorem encForm_of_modifier (hk : visitsKey kc s) (hc : classOf s.cfg.val kc = .modifier mask) :
    encForm s = .ok (.modifier mask) :=
  (encForm_of_visitsKey hk).trans (by simp only [encFormOfKey, hc])

theorem encForm_of_sentinel (hk : visitsKey kc s) (hc : classOf s.cfg.val kc = .sentinel) : encForm s = .ok (.sentinel kc) :=
  (encForm_of_visitsKey hk).trans (by simp only [encFormOfKey, hc])

theorem encForm_of_normal (hk : visitsKey kc s) (hc : classOf s.cfg.val kc = .normal) (hsl : s.slots = some sl) :
    encForm s = .ok (if slotsFull sl then .overflow else .key kc sl) := by
  rw [encForm_of_visitsKey hk]
  simp only [encFormOfKey, hc, hsl]
  split <;> rfl

end Forms

/-- The masks of a configuration have one bit each (00_scope R8 d). -/
theorem mask_eq_shift {mask : Byte} (h : mask ∈ oneBitMasks) : ∃ i, i < 8 ∧ mask = 1#8 <<< i := by
  revert h
  exact (by decide : ∀ m ∈ oneBitMasks, ∃ i, i < 8 ∧ m = 1#8 <<< i) mask

/-! ### The forms of ENC_CELL -/

/-- A form of ENC_CELL that runs is the one the state selects (43 R161). -/
theorem form_of_exec {i : Instr} {s t : State} (hi : i.uop = .encCell) (he : exec i s = .next t) :
    ∃ f, encForm s = .ok f ∧ i = f.instr := by
  have hx := exec_next_result he
  cases i <;> simp only [Instr.uop, reduceCtorEq] at hi
  case encCellSkip => obtain ⟨-, hf, -⟩ := hx; exact ⟨_, hf, rfl⟩
  case encCellEmpty => obtain ⟨-, hf, -⟩ := hx; exact ⟨_, hf, rfl⟩
  case encCellMod => obtain ⟨-, _, _, hf, -⟩ := hx; exact ⟨_, hf, rfl⟩
  case encCellSent => obtain ⟨-, _, hf, -⟩ := hx; exact ⟨_, hf, rfl⟩
  case encCellKey => obtain ⟨-, _, _, hf, -⟩ := hx; exact ⟨_, hf, rfl⟩
  case encCellOvf => obtain ⟨-, hf, -⟩ := hx; exact ⟨_, hf, rfl⟩

/-- At one state at most one form of ENC_CELL runs (43 R161). -/
theorem encCell_form_unique {i j : Instr} {s t u : State} (hi : i.uop = .encCell) (hj : j.uop = .encCell)
    (ht : exec i s = .next t) (hu : exec j s = .next u) : i = j := by
  obtain ⟨f, hf, rfl⟩ := form_of_exec hi ht
  obtain ⟨g, hg, rfl⟩ := form_of_exec hj hu
  obtain rfl : f = g := Except.ok.inj (hf.symm.trans hg)
  rfl

/-- Under the invariant a form of ENC_CELL runs at each cell of the walk (10_state R47). -/
theorem encCell_form_runs {s : State} (h : Inv s) (hs : pollAt .lEncCell s) :
    ∃ (i : Instr) (t : State), i.uop = .encCell ∧ exec i s = .next t := by
  obtain ⟨hirq, hb, hl⟩ := hs
  obtain ⟨i, t, hi, ht⟩ := poll_issues_completing h hirq hb
  exact ⟨i, t, by rw [uop_of_issues hi, hl]; rfl, ht⟩

end Sys2Proof.Machine

namespace Sys2Proof.Proofs

open Sys2Proof.Machine

/-- Settles O22: ENC_INIT runs at its label, no other label issues it, and of six empty slots the first is slot 0. -/
theorem encInitClearsTheReport : Obligations.EncInitClearsTheReport := by
  refine ⟨fun s hs => exec_of_result ⟨hs, rfl⟩, firstEmpty_eq (by decide) (by simp) (by simp), ?_, rfl⟩
  intro l
  cases l <;> decide

/-- Settles O23: an open cell selects SKIP and an asserted one of class Empty selects EMPTY; both only advance. -/
theorem encCellSkipAndEmptyOnlyAdvance : Obligations.EncCellSkipAndEmptyOnlyAdvance :=
  ⟨fun _ _ hs hm hopen => exec_of_result ⟨hs, encForm_of_open hm hopen, rfl⟩,
   fun _ _ hs hk hc => exec_of_result ⟨hs, encForm_of_empty hk hc, rfl⟩, rfl, rfl⟩

/-- Settles O24: a modifier's cell selects MOD, and its mask is one of the configuration's. -/
theorem encCellModOrsTheMask : Obligations.EncCellModOrsTheMask :=
  ⟨fun _ _ _ _ hs hk hc hm => exec_of_result ⟨hs, _, _, encForm_of_modifier hk hc, hm, rfl⟩,
   fun w _ _ hc => mask_eq_shift (mask_one_bit w (mask_mem hc)), rfl⟩

/-- Settles O25: a Sentinel's cell selects SENT, and a Sentinel is not 0x00. -/
theorem encCellSentinelFillsTheSlots : Obligations.EncCellSentinelFillsTheSlots :=
  ⟨fun _ _ hs hk hc => exec_of_result ⟨hs, _, encForm_of_sentinel hk hc, rfl⟩,
   fun w _ hc => of_decide_eq_true (slotsFull_filled_sentinel w hc), rfl⟩

/-- Settles O26: a normal key's cell selects KEY while a slot is empty, and OVF once none is. -/
theorem encCellKeyAndOverflow : Obligations.EncCellKeyAndOverflow := by
  refine ⟨fun s kc sl n hn hs hk hc hsl hbefore hempty => ?_, fun s kc sl hs hk hc hsl hfull => ?_, rfl, rfl⟩
  · have hf := encForm_of_normal hk hc hsl
    rw [slotsFull_of_empty hn hempty] at hf
    rw [← putKey_eq_set kc hn hbefore hempty]
    exact exec_of_result ⟨hs, kc, sl, hf, rfl⟩
  · have hf := encForm_of_normal hk hc hsl
    rw [(slotsFull_iff sl).2 hfull] at hf
    exact exec_of_result ⟨hs, hf, rfl⟩

/-- Settles O27: a form that runs is the one the state selects, and under the invariant the label's operation completes. -/
theorem exactlyOneEncoderFormRuns : Obligations.ExactlyOneEncoderFormRuns :=
  ⟨fun _ _ _ _ _ => encCell_form_unique, fun _ => encCell_form_runs⟩

end Sys2Proof.Proofs
end

section
/-!
PROOFS. The encoder's walk (43 R169): after each cell the encoder's registers are those of the pure encoder for the keys visited so
far, so that the run of ENCODE ends with the pure report.
-/

namespace Sys2Proof.Machine

/-! ### The keys visited so far -/

/-- The key code that the walk looks up at cell `k`: that of an asserted cell, none for an open one (43 R161). -/
def visitedKey (c : Cfg) (l : Layer) (m : Matrix c.ncols c.nrows) (k : Nat) : Option Byte :=
  if arrayAt m (cellOf c k) = some true then tableRead c l (cellOf c k) else none

/-- The key codes looked up at the cells before `k`, in visiting order (20_memory R69). -/
def visitedKeys (c : Cfg) (l : Layer) (m : Matrix c.ncols c.nrows) (k : Nat) : List Byte :=
  (List.range k).filterMap (visitedKey c l m)

theorem visitedKeys_all (c : Cfg) (l : Layer) (m : Matrix c.ncols c.nrows) :
    visitedKeys c l m (cellCount c) = pressedKeys c l m := rfl

theorem visitedKeys_succ (c : Cfg) (l : Layer) (m : Matrix c.ncols c.nrows) (k : Nat) :
    visitedKeys c l m (k + 1) = visitedKeys c l m k ++ (visitedKey c l m k).toList := by
  cases hk : visitedKey c l m k <;> simp [visitedKeys, List.range_succ, hk]

/-- A cell of the matrix is open and no key is looked up, or it is asserted and the selected table's key is (43 R161). -/
theorem visitedKey_cases {w : WfCfg} (l : Layer) (m : MatrixOf w) {k : Nat} (hk : k < cellCount w.val) :
    (arrayAt m (cellOf w.val k) = some false ∧ visitedKey w.val l m k = none) ∨
    ∃ kc, arrayAt m (cellOf w.val k) = some true ∧ tableRead w.val l (cellOf w.val k) = some kc ∧
      visitedKey w.val l m k = some kc := by
  have hin := cellOf_inside w hk
  have hcell := arrayAt_of_inside m hin
  have hkey : tableRead w.val l (cellOf w.val k) = some _ := arrayAt_of_inside _ hin
  cases hc : cellAt m (cellOf w.val k) hin with
  | false => rw [hc] at hcell; exact .inl ⟨hcell, by simp [visitedKey, hcell]⟩
  | true => rw [hc] at hcell; exact .inr ⟨_, hcell, hkey, by simp only [visitedKey, hcell, hkey, if_true]⟩

/-! ### MOD and SLOT for the keys visited so far -/

/-- The OR of the keys' masks (43 R165). -/
def keysModifier (c : Cfg) (ks : List Byte) : Byte := (ks.map (modmaskOf c)).foldl (fun a b => a ||| b) 0x00

/-- The slots after the keys (43 R162 to R167). -/
def keysSlots (c : Cfg) (ks : List Byte) : Slots := ks.foldl (visitSlots c) (filled 0x00)

@[simp] theorem keysModifier_concat (c : Cfg) (ks : List Byte) (kc : Byte) :
    keysModifier c (ks ++ [kc]) = keysModifier c ks ||| modmaskOf c kc := by simp [keysModifier]

@[simp] theorem keysSlots_concat (c : Cfg) (ks : List Byte) (kc : Byte) :
    keysSlots c (ks ++ [kc]) = visitSlots c (keysSlots c ks) kc := by simp [keysSlots]

theorem keysModifier_pressed (c : Cfg) (l : Layer) (m : Matrix c.ncols c.nrows) :
    keysModifier c (pressedKeys c l m) = modifierByte c l m := rfl

theorem keysSlots_pressed (c : Cfg) (l : Layer) (m : Matrix c.ncols c.nrows) :
    keysSlots c (pressedKeys c l m) = encodedSlots c l m := rfl

/-! ### One cell of the walk -/

theorem withReport_self {s : State} {md : Byte} {sl : Slots} (hm : s.modifier = some md) (hsl : s.slots = some sl) :
    { s with modifier := some md, slots := some sl } = s := by rw [← hm, ← hsl]

/-- The form that an asserted cell selects makes of MOD and SLOT what the pure encoder does, whatever the key's class is (43 R163
to R167). -/
theorem exec_visitsKey {s : State} {kc md : Byte} {sl : Slots} (hs : pollAt .lEncCell s) (hk : visitsKey kc s)
    (hm : s.modifier = some md) (hsl : s.slots = some sl) :
    ∃ f, encForm s = .ok f ∧
      exec f.instr s =
        .next { s with
          modifier := some (md ||| modmaskOf s.cfg.val kc)
          slots := some (visitSlots s.cfg.val sl kc) }.advanceCell := by
  cases hc : classOf s.cfg.val kc with
  | empty =>
    have hf := encForm_of_empty hk hc
    simp only [modmaskOf, visitSlots, hc, BitVec.ofNat_eq_ofNat, BitVec.or_zero, withReport_self hm hsl]
    exact ⟨_, hf, exec_of_result (i := .encCellEmpty) ⟨hs, hf, rfl⟩⟩
  | modifier mask =>
    have hf := encForm_of_modifier hk hc
    simp only [modmaskOf, visitSlots, hc, ← hsl]
    exact ⟨_, hf, exec_of_result ⟨hs, _, _, hf, hm, rfl⟩⟩
  | sentinel =>
    have hf := encForm_of_sentinel hk hc
    simp only [modmaskOf, visitSlots, hc, BitVec.ofNat_eq_ofNat, BitVec.or_zero, ← hm]
    exact ⟨_, hf, exec_of_result ⟨hs, _, hf, rfl⟩⟩
  | normal =>
    have hf := encForm_of_normal hk hc hsl
    simp only [modmaskOf, visitSlots, hc, BitVec.ofNat_eq_ofNat, BitVec.or_zero, ← hm]
    refine ⟨_, hf, ?_⟩
    cases hfull : slotsFull sl with
    | true => rw [hfull] at hf; exact exec_of_result ⟨hs, hf, rfl⟩
    | false => rw [hfull] at hf; exact exec_of_result ⟨hs, _, _, hf, rfl⟩

/-! ### The run -/

/-- Where the walk stands when it comes to cell `k`: at the cell, or past the last one (43 R161). -/
def cellLabel (c : Cfg) (k : Nat) : Label := if k < cellCount c then .lEncCell else .lEncDone

/-- The walk that began at `s` with matrix `m` and layer `l`, when it comes to cell `k`. -/
def State.walked (s : State) (m : MatrixOf s.cfg) (l : Layer) (rest : List Move) (k : Nat) : State :=
  { s with
    modifier := some (keysModifier s.cfg.val (visitedKeys s.cfg.val l m k))
    slots := some (keysSlots s.cfg.val (visitedKeys s.cfg.val l m k))
    seqK := k
    seqPc := cellLabel s.cfg.val k
    moves := List.replicate (cellCount s.cfg.val - k + 1) .poll ++ rest
    draws := s.draws + 1 + k }

section Walk

variable {s : State} {m : MatrixOf s.cfg} {l : Layer} {rest : List Move}

/-- ENC_INIT begins the walk (43 R160). -/
theorem step_to_walk (hs : pollAt .lEncInit s) (hmoves : s.moves = List.replicate (cellCount s.cfg.val + 2) .poll ++ rest) :
    step s = .next (s.walked m l rest 0) := by
  refine step_of_scripted_poll (i := .encInit) hs hmoves rfl rfl ⟨hs, ?_⟩
  have hlabel : cellLabel s.cfg.val 0 = .lEncCell := if_pos (cellCount_pos s.cfg)
  simp only [State.walked, hlabel, State.useMove, hmoves]
  rfl

/-- The first of the moves scripted for the cells from `k` on is that of cell `k`. -/
theorem walkedMoves_eq {k : Nat} (hk : k < cellCount s.cfg.val) :
    (s.walked m l rest k).moves = .poll :: (s.walked m l rest (k + 1)).moves := by
  have hcount : cellCount s.cfg.val - k + 1 = cellCount s.cfg.val - (k + 1) + 1 + 1 := by omega
  simp only [State.walked, hcount, List.replicate_succ, List.cons_append]

/-- The walk comes to the next cell by one move of the poll context, what the cell makes of MOD and SLOT, and the advance (43
R161). -/
theorem walked_succ {k : Nat} (hk : k < cellCount s.cfg.val) :
    s.walked m l rest (k + 1) =
      { (s.walked m l rest k).useMove with
        modifier := some (keysModifier s.cfg.val (visitedKeys s.cfg.val l m (k + 1)))
        slots := some (keysSlots s.cfg.val (visitedKeys s.cfg.val l m (k + 1))) }.advanceCell := by
  have htail : (s.walked m l rest k).useMove.moves = (s.walked m l rest (k + 1)).moves := by
    rw [useMove_moves, walkedMoves_eq hk, List.tail_cons]
  simp only [State.advanceCell, htail]
  rfl

/-- A step of the poll context at a cell takes the walk to the next one (43 R161). -/
theorem step_walked (hidle : s.inIrq = false) (hrun : s.booted = false) (hdeb : s.deb = some m) (hlayer : s.layer = some l)
    {k : Nat} (hk : k < cellCount s.cfg.val) : step (s.walked m l rest k) = .next (s.walked m l rest (k + 1)) := by
  have hpc : (s.walked m l rest k).useMove.seqPc = .lEncCell := if_pos hk
  have hat : pollAt .lEncCell (s.walked m l rest k).useMove := ⟨hidle, hrun, hpc⟩
  have hpoll : nextMove (s.walked m l rest k) = .poll :=
    nextMove_of_scripted (walkedMoves_eq hk) ((pollEnabled_iff _).2 ⟨hidle, hrun⟩)
  have step_form {f : EncForm} (hf : encForm (s.walked m l rest k).useMove = .ok f) :
      step (s.walked m l rest k) = exec f.instr (s.walked m l rest k).useMove :=
    step_of_poll hrun hpoll (issues_encCell hpc hf)
  rw [walked_succ hk, visitedKeys_succ]
  obtain ⟨hopen, hnone⟩ | ⟨kc, hcell, hkey, hsome⟩ := visitedKey_cases l m hk
  · have hf : encForm (s.walked m l rest k).useMove = .ok .skip := encForm_of_open hdeb hopen
    rw [step_form hf, hnone, Option.toList_none, List.append_nil]
    exact exec_of_result (i := .encCellSkip) ⟨hat, hf, rfl⟩
  · obtain ⟨f, hf, he⟩ := exec_visitsKey hat ⟨⟨m, hdeb, hcell⟩, l, hlayer, hkey⟩ rfl rfl
    rw [step_form hf, he, hsome, Option.toList_some, keysModifier_concat, keysSlots_concat]
    rfl

/-- The cells before `k` are `k` steps of the poll context (43 R169). -/
theorem runSteps_walk (hidle : s.inIrq = false) (hrun : s.booted = false) (hdeb : s.deb = some m) (hlayer : s.layer = some l)
    {k : Nat} (hk : k ≤ cellCount s.cfg.val) : runSteps k (s.walked m l rest 0) = .next (s.walked m l rest k) := by
  induction k with
  | zero => rfl
  | succ k ih =>
    rw [runSteps_of_next (ih (by omega))]
    exact runSteps_cons (step_walked hidle hrun hdeb hlayer hk) rfl

/-- ENC_DONE ends the walk with the pure encoder's report (43 R168, R169). -/
theorem step_from_walk (hidle : s.inIrq = false) (hrun : s.booted = false) :
    step (s.walked m l rest (cellCount s.cfg.val)) =
      .next { s with
        modifier := some (modifierByte s.cfg.val l m), slots := some (encodedSlots s.cfg.val l m),
        rep := some (encodedReport s.cfg.val l m), seqK := cellCount s.cfg.val, seqPc := .lCsEnter,
        moves := rest, draws := s.draws + 1 + cellCount s.cfg.val + 1 } := by
  have hlabel : cellLabel s.cfg.val (cellCount s.cfg.val) = .lEncDone := if_neg (Nat.lt_irrefl _)
  have hmoves : List.replicate (cellCount s.cfg.val - cellCount s.cfg.val + 1) .poll ++ rest = .poll :: rest := by simp
  simp only [State.walked, hlabel, hmoves, visitedKeys_all, keysModifier_pressed, keysSlots_pressed]
  exact step_of_scripted_poll (i := .encDone) ⟨hidle, hrun, rfl⟩ rfl rfl rfl ⟨⟨hidle, hrun, rfl⟩, _, _, rfl, rfl, rfl⟩

end Walk

end Sys2Proof.Machine

namespace Sys2Proof.Proofs

open Sys2Proof.Machine

/-- Settles O52: ENC_INIT, the cells one by one, ENC_DONE. -/
theorem encodeBuildsThePureReport : Obligations.EncodeBuildsThePureReport := by
  intro s m l rest hs hdeb hlayer hmoves
  obtain ⟨hidle, hrun, -⟩ := id hs
  have hcells := runSteps_walk (rest := rest) hidle hrun hdeb hlayer le_rfl
  have hdone := step_from_walk (m := m) (l := l) (rest := rest) hidle hrun
  exact ⟨_, runSteps_cons (step_to_walk hs hmoves) ((runSteps_of_next hcells).trans (runSteps_cons hdone rfl))⟩

end Sys2Proof.Proofs
end

section
/-!
PROOFS. What the pure encoder makes of the slots (43 R170): up to six normal keys stay packed from the left, and the seventh key
or a Sentinel fills the slots for the rest of the walk.
-/

namespace Sys2Proof.Machine

/-! ### Keys packed from the left -/

@[simp] theorem leftPacked_nil : leftPacked [] = filled 0x00 := by
  ext i hi : 1
  simp [leftPacked]

theorem leftPacked_of_lt {ks : List Byte} {i : Nat} (hi : i < 6) (h : i < ks.length) : (leftPacked ks)[i] = ks[i] := by
  simp [leftPacked, h]

theorem leftPacked_of_ge {ks : List Byte} {i : Nat} (hi : i < 6) (h : ks.length ≤ i) : (leftPacked ks)[i] = 0x00 := by
  simp [leftPacked, h]

/-- The remainder after the keys is zero (30 R90). -/
theorem toList_leftPacked {ks : List Byte} (h : ks.length ≤ 6) :
    (leftPacked ks).toList = ks ++ List.replicate (6 - ks.length) 0x00 := by
  refine List.ext_getElem (by simp; omega) fun i hi _ => ?_
  have hi : i < 6 := by simpa using hi
  rw [Vector.getElem_toList]
  by_cases hlt : i < ks.length
  · rw [leftPacked_of_lt hi hlt, List.getElem_append_left hlt]
  · rw [leftPacked_of_ge hi (by omega), List.getElem_append_right (by omega), List.getElem_replicate]

section Packed

variable {ks : List Byte}

theorem leftPacked_ne_zero (h0 : 0x00 ∉ ks) {i : Nat} (hi : i < 6) (h : i < ks.length) : (leftPacked ks)[i] ≠ 0x00 := by
  rw [leftPacked_of_lt hi h]
  exact fun e => h0 (e ▸ List.getElem_mem h)

theorem slotsFull_leftPacked (h0 : 0x00 ∉ ks) (h : ks.length = 6) : slotsFull (leftPacked ks) = true :=
  (slotsFull_iff _).2 fun _ hi => leftPacked_ne_zero h0 hi (h ▸ hi)

/-- The slot after the keys is the first empty one, where the next key is put (43 R166). -/
theorem putKey_leftPacked (h0 : 0x00 ∉ ks) (h : ks.length < 6) (kc : Byte) :
    putKey (leftPacked ks) kc = leftPacked (ks ++ [kc]) := by
  rw [putKey_eq_set kc h (fun i hi => leftPacked_ne_zero h0 (by omega) hi) (leftPacked_of_ge h le_rfl)]
  ext i hi : 1
  rw [Vector.getElem_set]
  split
  · next hat => subst hat; simp [leftPacked]
  · next hne =>
    obtain hlt | hgt := Nat.lt_or_gt_of_ne hne
    · rw [leftPacked_of_ge hi hlt.le, leftPacked_of_ge hi (by simpa using hlt)]
    · rw [leftPacked_of_lt hi hgt, leftPacked_of_lt hi (by simp; omega), List.getElem_append_left hgt]

end Packed

/-! ### The keys one by one -/

/-- The normal keys among the key codes (43 R171). -/
def normalsOf (c : Cfg) (ks : List Byte) : List Byte := ks.filter fun k => decide (classOf c k = .normal)

theorem normalKeys_eq (c : Cfg) (l : Layer) (m : Matrix c.ncols c.nrows) :
    normalKeys c l m = normalsOf c (pressedKeys c l m) := rfl

theorem normalsOf_cons_normal {c : Cfg} {kc : Byte} (ks : List Byte) (hc : classOf c kc = .normal) :
    normalsOf c (kc :: ks) = kc :: normalsOf c ks := List.filter_cons_of_pos (by simp [hc])

theorem normalsOf_cons_other {c : Cfg} {kc : Byte} (ks : List Byte) (hc : classOf c kc ≠ .normal) :
    normalsOf c (kc :: ks) = normalsOf c ks := List.filter_cons_of_neg (by simp [hc])

/-- A key that is neither normal nor a Sentinel leaves the slots (43 R163, R165). -/
theorem visitSlots_other {c : Cfg} {kc : Byte} (sl : Slots) (hn : classOf c kc ≠ .normal) (hs : classOf c kc ≠ .sentinel) :
    visitSlots c sl kc = sl := by
  cases hc : classOf c kc with
  | empty => simp only [visitSlots, hc]
  | modifier mask => simp only [visitSlots, hc]
  | sentinel => exact absurd hc hs
  | normal => exact absurd hc hn

theorem visitSlots_sentinel {c : Cfg} {kc : Byte} (sl : Slots) (hc : classOf c kc = .sentinel) :
    visitSlots c sl kc = filled kc := by simp only [visitSlots, hc]

/-- A normal key that finds no empty slot overflows (43 R167). -/
theorem visitSlots_full {c : Cfg} {kc : Byte} {sl : Slots} (hc : classOf c kc = .normal) (hfull : slotsFull sl = true) :
    visitSlots c sl kc = filled c.kcRollover := by simp only [visitSlots, hc, hfull, if_true]

theorem zero_not_mem_concat {w : WfCfg} {ks : List Byte} {kc : Byte} (h0 : 0x00 ∉ ks) (hc : classOf w.val kc = .normal) :
    0x00 ∉ ks ++ [kc] := by
  have hkc : kc ≠ 0x00 := ne_zero_of_class w (by simp [hc])
  exact fun hmem => (List.mem_append.1 hmem).elim h0 fun h => hkc (List.mem_singleton.1 h).symm

/-- A normal key after fewer than six joins them (43 R166). -/
theorem visitSlots_leftPacked {w : WfCfg} {ks : List Byte} {kc : Byte} (h0 : 0x00 ∉ ks) (h : ks.length < 6)
    (hc : classOf w.val kc = .normal) : visitSlots w.val (leftPacked ks) kc = leftPacked (ks ++ [kc]) := by
  have hfull : slotsFull (leftPacked ks) = false := slotsFull_of_empty h (leftPacked_of_ge h le_rfl)
  simp only [visitSlots, hc, hfull, Bool.false_eq_true, if_false, putKey_leftPacked h0 h]

/-! ### The whole walk -/

/-- Six normal keys at most, and no Sentinel, are packed behind those already in the slots (43 R170 a). -/
theorem foldl_visitSlots_leftPacked {w : WfCfg} {seen ks : List Byte} (h0 : 0x00 ∉ seen)
    (hsent : ∀ k ∈ ks, classOf w.val k ≠ .sentinel) (hlen : (seen ++ normalsOf w.val ks).length ≤ 6) :
    ks.foldl (visitSlots w.val) (leftPacked seen) = leftPacked (seen ++ normalsOf w.val ks) := by
  induction ks generalizing seen with
  | nil => simp [normalsOf]
  | cons kc ks ih =>
    obtain ⟨hkc, hsent⟩ := List.forall_mem_cons.1 hsent
    rw [List.foldl_cons]
    by_cases hc : classOf w.val kc = .normal
    · rw [normalsOf_cons_normal ks hc, List.append_cons] at hlen ⊢
      have hroom : seen.length < 6 := by simp at hlen; omega
      rw [visitSlots_leftPacked h0 hroom hc, ih (zero_not_mem_concat h0 hc) hsent hlen]
    · rw [normalsOf_cons_other ks hc] at hlen ⊢
      rw [visitSlots_other _ hc hkc, ih h0 hsent hlen]

/-- Slots filled with KC_ROLLOVER stay so, as long as no other Sentinel is visited (43 R167, 00_scope R8 f). -/
theorem foldl_visitSlots_rollover {w : WfCfg} {ks : List Byte}
    (hsent : ∀ k ∈ ks, classOf w.val k = .sentinel → k = w.val.kcRollover) :
    ks.foldl (visitSlots w.val) (filled w.val.kcRollover) = filled w.val.kcRollover := by
  induction ks with
  | nil => rfl
  | cons kc ks ih =>
    obtain ⟨hkc, hsent⟩ := List.forall_mem_cons.1 hsent
    have hstay : visitSlots w.val (filled w.val.kcRollover) kc = filled w.val.kcRollover := by
      by_cases hn : classOf w.val kc = .normal
      · exact visitSlots_full hn (slotsFull_filled_sentinel w (classOf_rollover w))
      · by_cases hs : classOf w.val kc = .sentinel
        · rw [visitSlots_sentinel _ hs, hkc hs]
        · exact visitSlots_other _ hn hs
    rw [List.foldl_cons, hstay, ih hsent]

/-- The seventh normal key fills the slots with KC_ROLLOVER, unless the Sentinel KC_ROLLOVER has done so before (43 R170 b). -/
theorem foldl_visitSlots_overflow {w : WfCfg} {seen ks : List Byte} (h0 : 0x00 ∉ seen) (hseen : seen.length ≤ 6)
    (hsent : ∀ k ∈ ks, classOf w.val k = .sentinel → k = w.val.kcRollover)
    (hlen : 7 ≤ (seen ++ normalsOf w.val ks).length) :
    ks.foldl (visitSlots w.val) (leftPacked seen) = filled w.val.kcRollover := by
  induction ks generalizing seen with
  | nil => simp [normalsOf] at hlen; omega
  | cons kc ks ih =>
    obtain ⟨hkc, hsent⟩ := List.forall_mem_cons.1 hsent
    rw [List.foldl_cons]
    by_cases hc : classOf w.val kc = .normal
    · by_cases hfull : seen.length = 6
      · rw [visitSlots_full hc (slotsFull_leftPacked h0 hfull), foldl_visitSlots_rollover hsent]
      · have hroom : seen.length < 6 := by omega
        rw [normalsOf_cons_normal ks hc, List.append_cons] at hlen
        rw [visitSlots_leftPacked h0 hroom hc]
        exact ih (zero_not_mem_concat h0 hc) (by simpa using hroom) hsent hlen
    · by_cases hs : classOf w.val kc = .sentinel
      · rw [visitSlots_sentinel _ hs, hkc hs, foldl_visitSlots_rollover hsent]
      · rw [normalsOf_cons_other ks hc] at hlen
        rw [visitSlots_other _ hc hs, ih h0 hseen hsent hlen]

theorem encodedSlots_leftPacked {w : WfCfg} {l : Layer} {m : MatrixOf w}
    (hsent : ∀ k ∈ pressedKeys w.val l m, classOf w.val k ≠ .sentinel) (hlen : (normalKeys w.val l m).length ≤ 6) :
    encodedSlots w.val l m = leftPacked (normalKeys w.val l m) := by
  rw [normalKeys_eq] at hlen ⊢
  rw [encodedSlots, ← leftPacked_nil]
  exact foldl_visitSlots_leftPacked (by simp) hsent hlen

theorem encodedSlots_overflow {w : WfCfg} {l : Layer} {m : MatrixOf w}
    (hsent : ∀ k ∈ pressedKeys w.val l m, classOf w.val k = .sentinel → k = w.val.kcRollover)
    (hlen : 7 ≤ (normalKeys w.val l m).length) : encodedSlots w.val l m = filled w.val.kcRollover := by
  rw [normalKeys_eq] at hlen
  rw [encodedSlots, ← leftPacked_nil]
  exact foldl_visitSlots_overflow (by simp) (by simp) hsent hlen

theorem toList_slots (sl : Slots) : sl.toList = [sl[0], sl[1], sl[2], sl[3], sl[4], sl[5]] := by
  refine List.ext_getElem (by simp) fun i hi _ => ?_
  have hi : i < 6 := by simpa using hi
  rw [Vector.getElem_toList]
  interval_cases i <;> rfl

/-- The bytes of the pure encoder's report (30 R101). -/
theorem reportBytes_encodedReport (c : Cfg) (l : Layer) (m : Matrix c.ncols c.nrows) :
    reportBytes (encodedReport c l m) = modifierByte c l m :: 0x00 :: (encodedSlots c l m).toList := by
  rw [encodedReport, reportBytes_assemble, toList_slots]

end Sys2Proof.Machine

namespace Sys2Proof.Proofs

open Sys2Proof.Machine

/-- Settles O53: the run builds the pure report, whose slots are the normal keys packed from the left. -/
theorem sixKeysAreReportedLeftPacked : Obligations.SixKeysAreReportedLeftPacked := by
  intro s m l rest hs hdeb hlayer hmoves hsent hlen
  obtain ⟨d, hrun⟩ := encodeBuildsThePureReport s m l rest hs hdeb hlayer hmoves
  refine ⟨_, _, hrun, rfl, ?_⟩
  rw [reportBytes_encodedReport, encodedSlots_leftPacked hsent hlen, toList_leftPacked hlen]

/-- Settles O54: the run builds the pure report, whose slots the seventh normal key or KC_ROLLOVER itself has filled. -/
theorem sevenKeysReportRollover : Obligations.SevenKeysReportRollover := by
  intro s m l rest hs hdeb hlayer hmoves hsent hlen
  obtain ⟨d, hrun⟩ := encodeBuildsThePureReport s m l rest hs hdeb hlayer hmoves
  refine ⟨_, _, hrun, rfl, ?_⟩
  rw [reportBytes_encodedReport, encodedSlots_overflow hsent hlen, filled, Vector.toList_replicate]

end Sys2Proof.Proofs
end

section
/-!
PROOFS. The host's requests inside a handler (44 R181 to R187): the whole next state of each of the five, and when the two
rejecting forms are the ones selected.
-/

namespace Sys2Proof.Machine

/-! ### A report and its bytes -/

theorem length_reportBytes (r : Report) : (reportBytes r).length = 8 := by simp [reportBytes]

/-- Bit `i` of a report lies in byte `i / 8` (20_memory R67). -/
theorem getLsbD_reportByte (r : Report) (i : Nat) : (reportByte r (i / 8)).getLsbD (i % 8) = r.getLsbD i := by
  have hbit : i % 8 < 8 := Nat.mod_lt i (by decide)
  rw [reportByte, BitVec.getLsbD_extractLsb', decide_eq_true hbit, Bool.true_and, Nat.div_add_mod]

/-- Reports that agree in their bytes are the same report. -/
theorem reportBytes_injective : Function.Injective reportBytes := by
  intro r q h
  have hbytes : ∀ i < 8, reportByte r i = reportByte q i := by simpa [reportBytes] using h
  refine BitVec.eq_of_getLsbD_eq fun i hi => ?_
  rw [← getLsbD_reportByte r, ← getLsbD_reportByte q, hbytes (i / 8) (by omega)]

/-- The bytes of a report give the report back (20_memory R67). -/
theorem reportOfBytes_reportBytes (r : Report) : reportOfBytes (reportBytes r) = r :=
  reportBytes_injective (reportBytes_ofBytes _ _ _ _ _ _ _ _)

/-! ### The accepted combination -/

/-- A `set_report` is not the accepted combination as soon as its type, its id or its payload's length differs (44 R185). -/
theorem setReportAccepted_eq_false_iff (type : RType) (id : Byte) (payload : List Byte) :
    setReportAccepted type id payload = false ↔ type ≠ .output ∨ id ≠ 0 ∨ payload.length ≠ 1 := by
  simp only [setReportAccepted, Bool.and_eq_false_iff, decide_eq_false_iff_not, or_assoc, ne_eq]

/-- GET_REPORT.UNSUP completes only where it is selected (44 R182). -/
theorem type_of_getReportUnsup {s t : State} {type : RType} {id : Byte} (h : exec (.getReportUnsup type id) s = .next t) :
    type ≠ .input := by
  obtain ⟨-, htype, -⟩ := exec_next_result h
  exact htype

/-- SET_REPORT.UNSUP completes only where it is selected (44 R185). -/
theorem rejected_of_setReportUnsup {s t : State} {type : RType} {id : Byte} {payload : List Byte}
    (h : exec (.setReportUnsup type id payload) s = .next t) : setReportAccepted type id payload = false := by
  obtain ⟨-, hrejected, -⟩ := exec_next_result h
  exact hrejected

end Sys2Proof.Machine

namespace Sys2Proof.Proofs

open Sys2Proof.Machine

/-- Settles O36: the answer is BR_REPORT byte by byte, and the bytes determine the report. -/
theorem getReportAnswersTheCommittedReport : Obligations.GetReportAnswersTheCommittedReport :=
  ⟨fun _ id hs => exec_of_result (i := .getReportInput id) ⟨hs, rfl⟩,
   fun r => ⟨length_reportBytes r, reportOfBytes_reportBytes r⟩, fun _ => rfl⟩

/-- Settles O37: the guard of the rejecting form is that the type is not Input. -/
theorem getReportOfOtherTypesIsRejected : Obligations.GetReportOfOtherTypesIsRejected :=
  ⟨fun _ type id hs htype => exec_of_result (i := .getReportUnsup type id) ⟨hs, htype, rfl⟩,
   fun _ _ _ _ => type_of_getReportUnsup, fun _ _ => rfl⟩

/-- Settles O38: the indicators and the setters' arguments are bits 0 to 4 of the payload byte. -/
theorem setReportWritesTheLeds : Obligations.SetReportWritesTheLeds :=
  ⟨fun _ b hs => exec_of_result (i := .setReportLed b) ⟨hs, rfl⟩, fun _ => rfl⟩

/-- Settles O39: the guard of the rejecting form is that the type, the id or the length differs from the accepted one. -/
theorem otherSetReportsAreRejected : Obligations.OtherSetReportsAreRejected := by
  refine ⟨fun s type id payload hs hother => ?_, fun s t type id payload h => ?_, fun _ _ _ => rfl⟩
  · have hrejected := (setReportAccepted_eq_false_iff type id payload).2 hother
    exact exec_of_result (i := .setReportUnsup type id payload) ⟨hs, hrejected, rfl⟩
  · exact (setReportAccepted_eq_false_iff type id payload).1 (rejected_of_setReportUnsup h)

/-- Settles O40: the answer is the configuration's bytes, and no guard but the handler's is asked. -/
theorem getDescriptorAnswersTheBytes : Obligations.GetDescriptorAnswersTheBytes :=
  ⟨fun _ hs => exec_of_result (i := .getDescriptor) ⟨hs, rfl⟩, rfl⟩

end Sys2Proof.Proofs
end

section
/-!
PROOFS. Start-up and the loop's pacing (45_bridge_and_poll_loop sections 1 to 3, R222): where an operation runs, the environment's two
moves, the start-up operations and the wait, and the first scan with its boot check as a run from reset.
-/

namespace Sys2Proof.Machine

/-! ### Where an operation runs (45 R200, R215, 44 R180) -/

theorem issued_of_pollAt {l : Label} {s : State} (hs : pollAt l s) :
    s.inIrq = false ∧ microprogram s.seqPc = microprogram l := by
  obtain ⟨hidle, -, hl⟩ := hs
  exact ⟨hidle, congrArg microprogram hl⟩

/-- An operation of the poll context runs outside a handler and at a label that issues it (45 R200). -/
theorem issued_of_exec {i : Instr} {s t : State} (he : exec i s = .next t) (hi : ofIrqContext i = false) :
    s.inIrq = false ∧ microprogram s.seqPc = i.uop := by
  have hx := exec_next_result he
  cases i
  case irqEnter | getReportInput | getReportUnsup | setReportLed | setReportUnsup | getDescriptor | irqExit => cases hi
  case settle => obtain ⟨hs, -⟩ | ⟨hs, -⟩ := hx <;> exact issued_of_pollAt hs
  case tmrArmFirst | tmrArmPeriod => obtain ⟨hs | hs, -⟩ := hx <;> exact issued_of_pollAt hs
  all_goals obtain ⟨hs, -⟩ := hx; exact issued_of_pollAt hs

/-- Requests and the return run inside a handler (44 R180, 45 R216). -/
theorem handler_of_exec {i : Instr} {s t : State} (he : exec i s = .next t) (hi : ofIrqContext i = true)
    (henter : i ≠ .irqEnter) : s.inIrq = true := by
  have hx := exec_next_result he
  cases i
  case irqEnter => exact absurd rfl henter
  case getReportInput | getReportUnsup | setReportLed | setReportUnsup | getDescriptor | irqExit =>
    obtain ⟨⟨hirq, -⟩, -⟩ := hx
    exact hirq
  all_goals cases hi

/-! ### Scripted moves -/

theorem useMove_of_scripted {s : State} {m : Move} {rest : List Move} (hm : s.moves = m :: rest) :
    s.useMove = { s with moves := rest, draws := s.draws + 1 } := by rw [State.useMove, hm, List.tail_cons]

/-- A step whose scripted move is enabled takes that move. -/
theorem step_of_scripted {s : State} {m : Move} {rest : List Move} (hrun : s.booted = false) (hm : s.moves = m :: rest)
    (he : moveEnabled s m = true) : step s = takeMove exec m { s with moves := rest, draws := s.draws + 1 } := by
  rw [step_of_move hrun, nextMove_of_scripted hm he, useMove_of_scripted hm]

/-- A scripted step of the poll context takes whatever the instruction it issues can do. -/
theorem step_of_scripted_issue {s t : State} {l : Label} {i : Instr} {rest : List Move} (hs : pollAt l s)
    (hm : s.moves = .poll :: rest) (hi : Issues .poll { s with moves := rest, draws := s.draws + 1 } i)
    (hx : ExecResult i { s with moves := rest, draws := s.draws + 1 } t) : step s = .next t := by
  obtain ⟨hidle, hrun, -⟩ := hs
  rw [step_of_scripted hrun hm ((pollEnabled_iff s).2 ⟨hidle, hrun⟩)]
  exact (takeMove_of_issues (by simp) (by simp) hi).trans (exec_of_result hx)

theorem step_raiseIrq {s : State} {rest : List Move} (hrun : s.booted = false) (hm : s.moves = .raiseIrq :: rest) :
    step s = .next { s with irqPending := true, moves := rest, draws := s.draws + 1 } :=
  step_of_scripted hrun hm (by simp [moveEnabled, raiseEnabled, hrun])

theorem step_tick {s : State} {rest : List Move} (hrun : s.booted = false) (harmed : s.tmrArmed = true)
    (hexp : s.tmrExpired = false) (hm : s.moves = .tick :: rest) :
    step s = .next { s with tmrExpired := true, moves := rest, draws := s.draws + 1 } :=
  step_of_scripted hrun hm ((tickEnabled_iff s).2 ⟨harmed, hexp, hrun⟩)

/-! ### The forms of TMR_ARM that are issued (30 R97) -/

theorem issues_tmrArmFirst {s : State} (hl : s.seqPc = .bArm) (hboot : s.seqBoot = true) : Issues .poll s .tmrArmFirst := by
  simpa [hboot, tmrArmForm] using issues_tmrArm (.inl hl)

theorem issues_tmrArmPeriod {s : State} (hl : s.seqPc = .lRearm) (hboot : s.seqBoot = false) :
    Issues .poll s .tmrArmPeriod := by
  simpa [hboot, tmrArmForm] using issues_tmrArm (.inr hl)

/-! ### The boot check -/

section BootCheck

variable {s : State} {m : MatrixOf s.cfg} {rest : List Move}

/-- A scripted step at B_CHECK goes where DEB[BOOT_POS] says (45 R201). -/
theorem step_bootCheck {b : Bool} (hs : pollAt .bCheck s) (hdeb : s.deb = some m) (hm : s.moves = .poll :: rest)
    (hkey : arrayAt m s.cfg.val.bootPos = some b) :
    step s = .next { s with seqPc := if b then .bEnter else .bArm, moves := rest, draws := s.draws + 1 } := by
  obtain ⟨-, -, hl⟩ := id hs
  exact step_of_scripted_issue (i := .bootCheck) hs hm (issues_poll hl rfl rfl)
    ⟨hs, b, readDeb_of_arrayAt hdeb hkey _, rfl⟩

/-- With BOOT_POS asserted, BOOT_CHECK and BOOT_ENTER end the run at the bootloader (45 R201, R203). -/
theorem runSteps_bootEnter (hs : pollAt .bCheck s) (hdeb : s.deb = some m) (hm : s.moves = .poll :: .poll :: rest)
    (hkey : arrayAt m s.cfg.val.bootPos = some true) :
    runSteps 2 s =
      .next { s with
        booted := true, seqPc := .bEnter, events := s.events ++ [.bootEnter], moves := rest, draws := s.draws + 1 + 1 } := by
  obtain ⟨hidle, hrun, -⟩ := id hs
  refine runSteps_cons (step_bootCheck hs hdeb hm hkey) (runSteps_cons ?_ rfl)
  exact step_of_scripted_issue (i := .bootEnter) ⟨hidle, hrun, rfl⟩ rfl (issues_poll (l := .bEnter) rfl rfl rfl)
    ⟨⟨hidle, hrun, rfl⟩, rfl⟩

/-- With BOOT_POS open, BOOT_CHECK and TMR_ARM arm the long first period and leave the start-up (45 R201, R202). -/
theorem runSteps_bootArm (hs : pollAt .bCheck s) (hboot : s.seqBoot = true) (hdeb : s.deb = some m)
    (hm : s.moves = .poll :: .poll :: rest) (hkey : arrayAt m s.cfg.val.bootPos = some false) :
    runSteps 2 s =
      .next { s with
        seqBoot := false, tmrArmed := true, tmrExpired := false, seqPc := .lWait,
        events := s.events ++ [.tmrArm s.cfg.val.tFirst], moves := rest, draws := s.draws + 1 + 1 } := by
  obtain ⟨hidle, hrun, -⟩ := id hs
  refine runSteps_cons (step_bootCheck hs hdeb hm hkey) (runSteps_cons ?_ rfl)
  exact step_of_scripted_issue (i := .tmrArmFirst) ⟨hidle, hrun, rfl⟩ rfl (issues_tmrArmFirst rfl hboot)
    ⟨.inl ⟨hidle, hrun, rfl⟩, hboot, rfl⟩

end BootCheck

/-! ### The run from reset -/

/-- The reset state with the moves of the first scan and of the boot check scripted, and the matrix it samples. -/
def State.startup (w : WfCfg) (m : MatrixOf w) : State :=
  (State.resetWith w).withEnv (List.replicate (6 * w.val.ncols + 3) .poll) m.toList []

/-- The boot check's position after the first scan from reset: the filter's first matrix in DEB, every line released. -/
def State.firstScanned (w : WfCfg) (m : MatrixOf w) (draws : Nat) : State :=
  { State.resetWith w with
    dbs := (dbfAnswer w.val w.val.dbf.dbs0 m).1
    deb := some (dbfAnswer w.val w.val.dbf.dbs0 m).2
    seqC := w.val.ncols
    seqPc := .bCheck
    events := scanEvents w.val ++ [.dbfStep]
    moves := [.poll, .poll]
    draws := draws }

/-- The first scan from reset is SCAN, and goes to the boot check (40 R126, 45 R201, 70 R264). -/
theorem runSteps_firstScan (w : WfCfg) (m : MatrixOf w) :
    ∃ d, runSteps (6 * w.val.ncols + 1) (State.startup w m) = .next (State.firstScanned w m d) :=
  Proofs.scanDeliversTheSampledMatrix (State.startup w m) m [.poll, .poll] [] ⟨rfl, rfl, rfl⟩ rfl rfl rfl
    (List.replicate_add (6 * w.val.ncols + 1) 2 Move.poll) (List.append_nil _).symm

/-- The start-up is the first scan and two more steps. -/
theorem runSteps_startup {w : WfCfg} {m : MatrixOf w} {d : Nat} {o : Out}
    (hscan : runSteps (6 * w.val.ncols + 1) (State.startup w m) = .next (State.firstScanned w m d))
    (hcheck : runSteps 2 (State.firstScanned w m d) = o) :
    runSteps (6 * w.val.ncols + 3) (State.startup w m) = o := (runSteps_of_next hscan).trans hcheck

/-! ### The events of a scan -/

theorem pCol_of_mem_scanEvents {c : Cfg} {e : Event} (he : e ∈ scanEvents c) : ∃ i v, e = .pCol i v := by
  obtain ⟨i, -, hi⟩ := List.mem_flatMap.1 he
  obtain rfl | rfl : e = .pCol i true ∨ e = .pCol i false := by simpa using hi
  · exact ⟨i, true, rfl⟩
  · exact ⟨i, false, rfl⟩

/-- What counts no column drive counts nothing in a scan. -/
theorem countP_scanEvents (c : Cfg) {p : Event → Bool} (hp : ∀ i v, p (.pCol i v) = false) :
    (scanEvents c).countP p = 0 := by
  refine List.countP_eq_zero.2 fun e he => ?_
  obtain ⟨i, v, rfl⟩ := pCol_of_mem_scanEvents he
  simp [hp]

end Sys2Proof.Machine

namespace Sys2Proof.Proofs

open Sys2Proof.Machine

/-- Settles O9: the guards, by the context the operation belongs to. -/
theorem operationsRunOnlyWhereIssued : Obligations.OperationsRunOnlyWhereIssued := by
  refine fun i s t he => ⟨not_booted_of_exec he, issued_of_exec he, ?_, handler_of_exec he⟩
  rintro rfl
  obtain ⟨hpending, hmask, hidle, -⟩ := exec_next_result he
  exact ⟨hpending, hmask, hidle⟩

/-- Settles O7: either move is the step; after the expiry the wait sees the flag. -/
theorem environmentMovesWriteOneFlag : Obligations.EnvironmentMovesWriteOneFlag := by
  refine ⟨fun _ _ => step_raiseIrq, fun _ _ => step_tick, fun s rest hs harmed hexp hm => ?_⟩
  obtain ⟨hidle, hrun, hl⟩ := hs
  have hwait := step_of_scripted_issue (s := { s with tmrExpired := true, moves := .poll :: rest, draws := s.draws + 1 })
    (i := .tmrWait) ⟨hidle, hrun, hl⟩ rfl (issues_poll hl rfl rfl) ⟨⟨hidle, hrun, hl⟩, .inl ⟨rfl, rfl⟩⟩
  exact runSteps_cons (step_tick hrun harmed hexp hm) (runSteps_cons hwait rfl)

/-- Settles O18: BOOT_CHECK's one read is the cell BOOT_POS of DEB. -/
theorem bootCheckAndEnter : Obligations.BootCheckAndEnter :=
  ⟨fun _ _ b hs hdeb hb => exec_of_result (i := .bootCheck) ⟨hs, b, readDeb_of_arrayAt hdeb hb _, rfl⟩,
    fun _ hs => exec_of_result (i := .bootEnter) ⟨hs, rfl⟩, rfl, rfl⟩

/-- Settles O19: each form runs at its label, and each guard is the value of SEQ.boot. -/
theorem timerArmForms : Obligations.TimerArmForms := by
  refine ⟨fun s hs hboot => exec_of_result (i := .tmrArmFirst) ⟨.inl hs, hboot, rfl⟩,
    fun s hs hboot => exec_of_result (i := .tmrArmPeriod) ⟨.inr hs, hboot, rfl⟩, fun s t he => ?_, fun s t he => ?_, rfl, rfl⟩
  · obtain ⟨-, hboot, -⟩ := exec_next_result he; exact hboot
  · obtain ⟨-, hboot, -⟩ := exec_next_result he; exact hboot

/-- Settles O20: the flag decides, and neither outcome writes it. -/
theorem timerWaitPollsTheFlag : Obligations.TimerWaitPollsTheFlag := by
  refine ⟨fun s hs hexp => exec_of_result (i := .tmrWait) ⟨hs, .inl ⟨hexp, rfl⟩⟩,
    fun s hs hexp => exec_of_result (i := .tmrWait) ⟨hs, .inr ⟨hexp, rfl⟩⟩, ?_, rfl⟩
  intro l
  cases l <;> decide

/-- Settles O56: SCAN from reset, then the boot check's two outcomes. -/
theorem startupChecksTheBootKeyOnce : Obligations.StartupChecksTheBootKeyOnce := by
  intro w m
  obtain ⟨d, hscan⟩ := runSteps_firstScan w m
  have hcell := arrayAt_of_inside (dbfAnswer w.val w.val.dbf.dbs0 m).2 (bootPos_inside w)
  have hs : pollAt .bCheck (State.firstScanned w m d) := ⟨rfl, rfl, rfl⟩
  cases hkey : cellAt (dbfAnswer w.val w.val.dbf.dbs0 m).2 w.val.bootPos (bootPos_inside w) with
  | true =>
    rw [hkey] at hcell
    refine ⟨_, runSteps_startup hscan (runSteps_bootEnter hs rfl rfl hcell), rfl, rfl, rfl, rfl, rfl, ?_⟩
    rw [if_pos hcell]
    exact ⟨rfl, rfl, rfl, List.append_assoc ..⟩
  | false =>
    rw [hkey] at hcell
    refine ⟨_, runSteps_startup hscan (runSteps_bootArm hs rfl rfl rfl hcell), rfl, rfl, rfl, rfl, rfl, ?_⟩
    rw [if_neg (by simp [hcell])]
    exact ⟨rfl, rfl, rfl, rfl, rfl, List.append_assoc ..⟩

/-- Settles O57: a first-pass filter hands the held key to the boot check, which ends the run; no event before is a push or an
arm. -/
theorem heldBootKeyEntersTheBootloader : Obligations.HeldBootKeyEntersTheBootloader := by
  intro w m hpass hkey
  obtain ⟨t, hrun, -, -, -, -, -, hend⟩ := startupChecksTheBootKeyOnce w m
  rw [hpass m, if_pos hkey] at hend
  obtain ⟨hbooted, -, -, hevents⟩ := hend
  refine ⟨t, hrun, hbooted, ?_, ?_, step_of_booted hbooted⟩
  · rw [hevents, List.countP_append, countP_scanEvents _ fun _ _ => rfl]; rfl
  · rw [hevents, List.countP_append, countP_scanEvents _ fun _ _ => rfl]; rfl

end Sys2Proof.Proofs
end

section
/-!
PROOFS. The report bridge, poll side, and the interrupt bracket (45_bridge_and_poll_loop sections 4 and 5): the operations, when a
push is suppressed, and TRANSFER with the re-arm as a run of the poll context.
-/

namespace Sys2Proof.Machine

/-- With REP equal to LAST_SENT no sending form of PUSH runs (45 R208). -/
theorem suppressed_of_unchanged {i : Instr} {s t : State} (hr : s.rep = some s.lastSent) (hi : i.uop = .push)
    (he : exec i s = .next t) : i = .pushSuppress := by
  have hx := exec_next_result he
  have unchanged {r : Report} (hr' : s.rep = some r) : r = s.lastSent := Option.some.inj (hr'.symm.trans hr)
  cases i <;> simp only [Instr.uop, reduceCtorEq] at hi
  case pushSuppress => rfl
  case pushOk | pushWouldBlock | pushHard =>
    obtain ⟨-, r, hr', hne, -⟩ := hx
    exact absurd (unchanged hr') hne

/-- An unchanged report is suppressed, and that is all PUSH does (45 R208). -/
theorem pushSuppress_of_unchanged {s : State} (hs : pollAt .lPush s) (hr : s.rep = some s.lastSent) :
    exec .pushSuppress s = .next { s with seqPc := .lCsExit } ∧
    ∀ (i : Instr) (t : State), i.uop = .push → exec i s = .next t → i = .pushSuppress :=
  ⟨exec_of_result ⟨hs, hr, rfl⟩, fun _ _ => suppressed_of_unchanged hr⟩

/-- PUSH.OK leaves the report it sent in LAST_SENT (45 R209). -/
theorem lastSent_of_pushOk {s t : State} (he : exec .pushOk s = .next t) : s.rep = some t.lastSent := by
  obtain ⟨-, r, hr, -, rfl⟩ := exec_next_result he
  exact hr

/-- CS_EXIT lets a pending interrupt in (45 R211, 60 R238). -/
theorem irqEnabled_of_csExit {s t : State} (he : exec .csExit s = .next t) (hpending : s.irqPending = true) :
    irqEnabled t = true := by
  obtain ⟨⟨hidle, hrun, -⟩, rfl⟩ := exec_next_result he
  exact (irqEnabled_iff _).2 ⟨hpending, rfl, hidle, hrun⟩

/-! ### The push of a cycle -/

/-- The events of a push of report `r` with result `res`: the call, and the log of a hard failure (45 R209, R210). -/
def pushEvents (r : Report) (res : PushRes) : List Event :=
  match res with
  | .ok => [.push r .ok]
  | .wouldBlock => [.push r .wouldBlock]
  | .hard kind => [.push r (.hard kind), .hardFailure kind]

/-- The state after the form of PUSH for a changed report `r` that drew `res` (45 R209, R210). -/
theorem exec_pushForm_eq {s : State} {r : Report} (hs : pollAt .lPush s) (hr : s.rep = some r) (hne : r ≠ s.lastSent)
    (res : PushRes) :
    exec res.form s =
      .next { s with
        lastSent := if res = .ok then r else s.lastSent, events := s.events ++ pushEvents r res, seqPc := .lCsExit,
        pushIn := s.pushIn.tail, draws := s.draws + 1 } := by
  cases res with
  | ok => exact exec_of_result (i := .pushOk) ⟨hs, r, hr, hne, rfl⟩
  | wouldBlock => exact exec_of_result (i := .pushWouldBlock) ⟨hs, r, hr, hne, rfl⟩
  | hard kind =>
    have hlog : s.events ++ pushEvents r (.hard kind) = s.events ++ [.push r (.hard kind)] ++ [.hardFailure kind] := by
      rw [List.append_assoc]; rfl
    rw [hlog]
    exact exec_of_result (i := .pushHard kind) ⟨hs, r, hr, hne, rfl⟩

/-- A scripted step at L_PUSH makes the drawn push where the report changed, and none where it did not (45 R207 to R210). -/
theorem step_push {s : State} {r : Report} {res : PushRes} {pushes : List PushRes} {rest : List Move} (hs : pollAt .lPush s)
    (hr : s.rep = some r) (hdraw : s.pushIn = res :: pushes) (hm : s.moves = .poll :: rest) :
    ∃ d, step s =
      .next { s with
        lastSent := if res = .ok then r else s.lastSent
        pushIn := if r = s.lastSent then res :: pushes else pushes
        events := s.events ++ (if r = s.lastSent then [] else pushEvents r res)
        seqPc := .lCsExit, moves := rest, draws := d } := by
  obtain ⟨hidle, hrun, hl⟩ := id hs
  by_cases hc : r = s.lastSent
  · have hsent : (if res = .ok then r else s.lastSent) = s.lastSent := by rw [hc, ite_self]
    rw [hsent, if_pos hc, if_pos hc, List.append_nil, ← hdraw]
    rw [hc] at hr
    exact ⟨_, step_of_scripted_issue (i := .pushSuppress) hs hm (issues_pushUnchanged hl hr) ⟨hs, hr, rfl⟩⟩
  · have hanswer : pushAnswer { s with moves := rest, draws := s.draws + 1 } = res := by simp only [pushAnswer, hdraw]
    have hissue := issues_pushChanged (s := { s with moves := rest, draws := s.draws + 1 }) hl hr hc
    rw [hanswer] at hissue
    have hexec := exec_pushForm_eq (s := { s with moves := rest, draws := s.draws + 1 }) ⟨hidle, hrun, hl⟩ hr hc res
    have htail : pushes = s.pushIn.tail := by rw [hdraw, List.tail_cons]
    rw [if_neg hc, if_neg hc, htail]
    exact ⟨_, step_of_scripted_issue hs hm hissue (exec_next_result hexec)⟩

/-! ### TRANSFER before and after the push -/

/-- CS_ENTER and COMMIT (45 R205, R206). -/
theorem runSteps_commit {s : State} {r : Report} {rest : List Move} (hs : pollAt .lCsEnter s) (hr : s.rep = some r)
    (hm : s.moves = .poll :: .poll :: rest) :
    runSteps 2 s =
      .next { s with mask := true, brReport := r, seqPc := .lPush, moves := rest, draws := s.draws + 1 + 1 } := by
  obtain ⟨hidle, hrun, hl⟩ := id hs
  have henter := step_of_scripted_issue (i := .csEnter) hs hm (issues_poll hl rfl rfl) ⟨hs, rfl⟩
  refine runSteps_cons henter (runSteps_cons ?_ rfl)
  exact step_of_scripted_issue (i := .commit) ⟨hidle, hrun, rfl⟩ rfl (issues_poll (l := .lCommit) rfl rfl rfl)
    ⟨⟨hidle, hrun, rfl⟩, r, hr, rfl⟩

/-- CS_EXIT and the re-arm (45 R211, R213). -/
theorem runSteps_rearm {s : State} {rest : List Move} (hs : pollAt .lCsExit s) (hloop : s.seqBoot = false)
    (hm : s.moves = .poll :: .poll :: rest) :
    runSteps 2 s =
      .next { s with
        mask := false, tmrArmed := true, tmrExpired := false, seqPc := .lWait,
        events := s.events ++ [.tmrArm s.cfg.val.tPeriod], moves := rest, draws := s.draws + 1 + 1 } := by
  obtain ⟨hidle, hrun, hl⟩ := id hs
  have hexit := step_of_scripted_issue (i := .csExit) hs hm (issues_poll hl rfl rfl) ⟨hs, rfl⟩
  refine runSteps_cons hexit (runSteps_cons ?_ rfl)
  exact step_of_scripted_issue (i := .tmrArmPeriod) ⟨hidle, hrun, rfl⟩ rfl (issues_tmrArmPeriod rfl hloop)
    ⟨.inr ⟨hidle, hrun, rfl⟩, hloop, rfl⟩

end Sys2Proof.Machine

namespace Sys2Proof.Proofs

open Sys2Proof.Machine

/-- Settles O29: the bracket writes MASK, and with MASK = 0 a pending interrupt is enabled. -/
theorem criticalSectionBracket : Obligations.CriticalSectionBracket :=
  ⟨fun _ hs => exec_of_result (i := .csEnter) ⟨hs, rfl⟩, fun _ hs => exec_of_result (i := .csExit) ⟨hs, rfl⟩,
    fun _ _ => irqEnabled_of_csExit, rfl, rfl⟩

/-- Settles O30: COMMIT runs at its label once REP is written. -/
theorem commitCopiesTheReport : Obligations.CommitCopiesTheReport :=
  ⟨fun _ r hs hr => exec_of_result (i := .commit) ⟨hs, r, hr, rfl⟩, rfl⟩

/-- Settles O31: the sending forms ask for a report that differs from LAST_SENT. -/
theorem pushSuppressSendsNothing : Obligations.PushSuppressSendsNothing := ⟨fun _ => pushSuppress_of_unchanged, rfl⟩

/-- Settles O32: PUSH.OK is the one writer of LAST_SENT, by the frame rule. -/
theorem pushOkRecordsTheReport : Obligations.PushOkRecordsTheReport :=
  ⟨fun _ _ hs hr hne => exec_pushForm_eq hs hr hne .ok,
    fun _ _ _ he hsent => writer_of_changed (r := .lastSent) he hsent, rfl⟩

/-- Settles O33: LAST_SENT is then the report itself, so it is unchanged. -/
theorem repeatedReportIsSuppressed : Obligations.RepeatedReportIsSuppressed := by
  intro s t u he hs hsent hrep
  exact pushSuppress_of_unchanged hs (by rw [hrep, hsent, lastSent_of_pushOk he])

/-- Settles O34: both failed forms are PUSH with a result that is not `Ok`. -/
theorem failedPushKeepsLastSent : Obligations.FailedPushKeepsLastSent :=
  ⟨fun _ _ hs hr hne => exec_pushForm_eq hs hr hne .wouldBlock,
    fun _ _ kind hs hr hne => exec_pushForm_eq hs hr hne (.hard kind), rfl, fun _ => rfl⟩

/-- Settles O35: entry under R215's condition, return inside a handler. -/
theorem interruptEntryAndReturn : Obligations.InterruptEntryAndReturn :=
  ⟨fun _ hpending hmask hidle hrun => exec_of_result (i := .irqEnter) ⟨hpending, hmask, hidle, hrun, rfl⟩,
    fun _ hs => exec_of_result (i := .irqExit) ⟨hs, rfl⟩, rfl, rfl⟩

/-- Settles O55: the commit, the push whatever it draws, and the re-arm. -/
theorem transferCommitsAndPushesOnce : Obligations.TransferCommitsAndPushesOnce := by
  intro s r res pushes rest hs hloop hr hdraw hm
  obtain ⟨hidle, hrun, -⟩ := id hs
  have hcommit := runSteps_commit hs hr hm
  obtain ⟨d, hpush⟩ := step_push (s := { s with
      mask := true, brReport := r, seqPc := .lPush, moves := List.replicate 3 .poll ++ rest, draws := s.draws + 1 + 1 })
    ⟨hidle, hrun, rfl⟩ hr hdraw rfl
  exact ⟨_, (runSteps_of_next hcommit).trans (runSteps_cons hpush (runSteps_rearm ⟨hidle, hrun, rfl⟩ hloop rfl))⟩

end Sys2Proof.Proofs
end

section
/-!
PROOFS. The interrupt and the critical section (60_exceptions section 4, 10_state R35 to R37): MASK keeps the handler out and
the handler keeps the poll context out; an interrupt raised inside the section stays pending to its end and is served right
after.
-/

namespace Sys2Proof.Machine

/-! ### What MASK and a running handler exclude (60 R238, 10_state R37) -/

section Exclusion

variable {s t : State} {i : Instr}

theorem nextMove_ne_irqEnter_of_masked (hmask : s.mask = true) (hrun : s.booted = false) : nextMove s ≠ .irqEnter := by
  intro hnext
  have henabled : irqEnabled s = true := by simpa [hnext, moveEnabled] using nextMove_enabled hrun
  obtain ⟨-, hclear, -⟩ := (irqEnabled_iff s).1 henabled
  simp [hmask] at hclear

theorem exec_irqEnter_ne_next_of_masked (hmask : s.mask = true) : exec .irqEnter s ≠ .next t := by
  intro he
  obtain ⟨-, hclear, -⟩ := exec_next_result he
  simp [hmask] at hclear

theorem nextMove_ne_poll_of_handler (hirq : s.inIrq = true) (hrun : s.booted = false) : nextMove s ≠ .poll := by
  intro hnext
  have henabled : pollEnabled s = true := by simpa [hnext, moveEnabled] using nextMove_enabled hrun
  obtain ⟨hidle, -⟩ := (pollEnabled_iff s).1 henabled
  simp [hirq] at hidle

theorem exec_ne_next_of_handler (hirq : s.inIrq = true) (hi : ofIrqContext i = false) : exec i s ≠ .next t := by
  intro he
  obtain ⟨hidle, -⟩ := issued_of_exec he hi
  simp [hirq] at hidle

/-- With MASK = 1 and no handler running, what runs is the poll context's (60 R238). -/
theorem pollContext_of_masked (hmask : s.mask = true) (hidle : s.inIrq = false) (he : exec i s = .next t) :
    ofIrqContext i = false := by
  refine Bool.eq_false_iff.2 fun hi => ?_
  have henter : i ≠ .irqEnter := by rintro rfl; exact exec_irqEnter_ne_next_of_masked hmask he
  simp [handler_of_exec he hi henter] at hidle

/-- Such an operation neither takes nor drops a pending interrupt (60 R237, 10_state R44). -/
theorem irqFlags_of_masked (hmask : s.mask = true) (hidle : s.inIrq = false) (he : exec i s = .next t) :
    t.irqPending = s.irqPending ∧ t.inIrq = false := by
  obtain ⟨-, hpending, hirq, -⟩ := Proofs.contextsKeepToTheirRegisters.2 i s t (pollContext_of_masked hmask hidle he) he
  exact ⟨hpending, hirq.trans hidle⟩

theorem idle_of_masked (h : Inv s) (hmask : s.mask = true) : s.inIrq = false :=
  Bool.eq_false_iff.2 fun hirq => by simp [h.sequencer.handler_unmasked hirq] at hmask

/-- No step with MASK = 1 takes or drops a pending interrupt: neither move of the environment, nor an operation. -/
theorem pending_kept_of_masked (h : Inv s) (hmask : s.mask = true) (hpending : s.irqPending = true) (hstep : step s = .next t) :
    t.irqPending = true ∧ t.inIrq = false := by
  have hidle := idle_of_masked h hmask
  obtain ⟨-, ⟨-, rfl⟩ | ⟨-, rfl⟩ | ⟨bytes, i, -, -, he⟩⟩ := step_next_cases hstep
  · exact ⟨rfl, hidle⟩
  · exact ⟨hpending, hidle⟩
  · obtain ⟨hkept, hirq⟩ := irqFlags_of_masked (s := s.useMove) hmask hidle he
    exact ⟨hkept.trans hpending, hirq⟩

end Exclusion

/-! ### The labels of the critical section -/

theorem loop_of_critical : ∀ l ∈ criticalLabels, l ∈ loopLabels ∧ l ∉ bootLabels ∧ l ≠ .lWait := by decide

/-- The machine stands at B_ENTER once BOOTED = 1 (45 R203). -/
theorem running_of_inv {s : State} (h : Inv s) (hl : s.seqPc ∉ bootLabels) : s.booted = false := by
  refine Bool.eq_false_iff.2 fun hbooted => hl ?_
  obtain ⟨henter, -⟩ := h.sequencer.booted_at_enter hbooted
  rw [henter]
  decide

/-- What the invariant says inside the critical section (10_state R35, R37, R39, 45 R204). -/
theorem registers_of_critical {s : State} (h : Inv s) (hl : s.seqPc ∈ criticalLabels) :
    s.mask = true ∧ s.inIrq = false ∧ s.booted = false ∧ s.seqBoot = false ∧ s.tmrExpired = true := by
  obtain ⟨hloop, hboot, hwait⟩ := loop_of_critical _ hl
  have hmask : s.mask = true := h.sequencer.mask_critical.2 hl
  have hphase : s.seqBoot = false := h.sequencer.loop_phase hloop
  exact ⟨hmask, idle_of_masked h hmask, running_of_inv h hboot, hphase, h.timer.cycle_expired hphase hwait⟩

/-- The next position is one step nearer to the re-arm, which CS_EXIT leads to (45 R206 to R211). -/
theorem next_of_critical (c : Cfg) {p : Position} (hp : p.label ∈ criticalLabels) :
    (p.next c).label ∈ .lRearm :: criticalLabels ∧ stepsToUnmask p.label = stepsToUnmask (p.next c).label + 1 := by
  obtain hl | hl | hl : p.label = .lCommit ∨ p.label = .lPush ∨ p.label = .lCsExit := by simpa [criticalLabels] using hp
  all_goals simp [Position.next, hl, criticalLabels, stepsToUnmask]

/-! ### The run to the end of the critical section -/

/-- A scripted move that is not enabled outside a handler gives the poll context its turn (log 6). -/
theorem nextMove_of_disabled {s : State} {m : Move} {rest : List Move} (hm : s.moves = m :: rest)
    (hd : moveEnabled s m = false) (hidle : s.inIrq = false) : nextMove s = .poll := by
  simp [nextMove, proposedMove, hm, hd, defaultMove, hidle]

/-- An interrupt is pending inside the critical section or right after it, and is proposed at every step to its end; `rest` is
proposed from then on. -/
structure PendingInSection (rest : List Move) (s : State) : Prop where
  inv : Inv s
  pending : s.irqPending = true
  idle : s.inIrq = false
  label : s.seqPc ∈ Label.lRearm :: criticalLabels
  proposed : s.moves = List.replicate (stepsToUnmask s.seqPc) .irqEnter ++ rest

/-- Inside the section the proposed interrupt waits and the poll context goes one step nearer to the end (60 R237). -/
theorem pendingInSection_step {rest : List Move} {s : State} (h : PendingInSection rest s) (hl : s.seqPc ∈ criticalLabels) :
    ∃ t, step s = .next t ∧ PendingInSection rest t ∧ stepsToUnmask s.seqPc = stepsToUnmask t.seqPc + 1 := by
  obtain ⟨hmask, hidle, hrun, hphase, hexp⟩ := registers_of_critical h.inv hl
  obtain ⟨-, hboot, -⟩ := loop_of_critical _ hl
  obtain ⟨i, t, hi, he⟩ := poll_issues_completing (inv_useMove h.inv) hidle hrun
  obtain ⟨hpos, hscript⟩ := exec_next_position he (pollContext_of_masked (s := s.useMove) hmask hidle he) hboot hphase hexp
  obtain ⟨hkept, hirq⟩ := irqFlags_of_masked (s := s.useMove) hmask hidle he
  have hpc : t.seqPc = (s.position.next s.cfg.val).label := congrArg Position.label hpos
  obtain ⟨hnear, hsteps⟩ := next_of_critical s.cfg.val (p := s.position) hl
  rw [← hpc] at hnear hsteps
  have hmoves : s.moves = .irqEnter :: (List.replicate (stepsToUnmask t.seqPc) .irqEnter ++ rest) := by
    rw [h.proposed, show stepsToUnmask s.seqPc = _ from hsteps]; rfl
  have hpoll : nextMove s = .poll := nextMove_of_disabled hmoves (by simp [moveEnabled, irqEnabled, hmask]) hidle
  exact
    ⟨t, (step_of_poll hrun hpoll hi).trans he,
      { inv := exec_keeps_inv (inv_useMove h.inv) he
        pending := hkept.trans h.pending
        idle := hirq
        label := hnear
        proposed := hscript.trans (congrArg List.tail hmoves) },
      hsteps⟩

/-- The poll context ends the section with the interrupt still pending: induction on the steps that are left. -/
theorem pendingInSection_run {rest : List Move} {n : Nat} {s : State} (h : PendingInSection rest s)
    (hn : stepsToUnmask s.seqPc = n) : ∃ t, runSteps n s = .next t ∧ PendingInSection rest t ∧ t.seqPc = .lRearm := by
  induction n generalizing s with
  | zero =>
    obtain hl | hl := List.mem_cons.1 h.label
    · exact ⟨s, rfl, h, hl⟩
    · obtain ⟨-, hsteps⟩ := next_of_critical s.cfg.val (p := s.position) hl
      exact absurd (hsteps.symm.trans hn) (Nat.succ_ne_zero _)
  | succ n ih =>
    obtain hl | hl := List.mem_cons.1 h.label
    · simp [hl, stepsToUnmask] at hn
    · obtain ⟨u, hstep, hu, hsteps⟩ := pendingInSection_step h hl
      obtain ⟨t, hrun, ht, hend⟩ := ih hu (by omega)
      exact ⟨t, runSteps_cons hstep hrun, ht, hend⟩

/-- ENV irq inside the section makes the interrupt pending (45 R222, 60 R237). -/
theorem pendingInSection_raised {s : State} {rest : List Move} (h : Inv s) (hl : s.seqPc ∈ criticalLabels)
    (hm : s.moves = .raiseIrq :: (List.replicate (stepsToUnmask s.seqPc) .irqEnter ++ rest)) :
    ∃ u, step s = .next u ∧ PendingInSection rest u ∧ u.seqPc = s.seqPc := by
  obtain ⟨-, hidle, hrun, -, -⟩ := registers_of_critical h hl
  have hstep := step_raiseIrq hrun hm
  exact ⟨_, hstep, ⟨step_keeps_inv h hstep, rfl, hidle, List.mem_cons_of_mem _ hl, rfl⟩, rfl⟩

/-- A scripted IRQ_ENTER that is enabled takes the interrupt (45 R215). -/
theorem step_irqEnter {s : State} {rest : List Move} (he : irqEnabled s = true) (hm : s.moves = .irqEnter :: rest) :
    step s = .next { s with irqPending := false, inIrq := true, moves := rest, draws := s.draws + 1 } := by
  obtain ⟨hpending, hmask, hidle, hrun⟩ := (irqEnabled_iff s).1 he
  rw [step_of_scripted hrun hm he, takeMove_of_issues (by simp) (by simp) (issues_irqEnter _)]
  exact exec_of_result (i := .irqEnter) ⟨hpending, hmask, hidle, hrun, rfl⟩

end Sys2Proof.Machine

namespace Sys2Proof.Proofs

open Sys2Proof.Machine

/-- Settles O10: the next move is an enabled one, and the guards of the operations are the same conditions. -/
theorem maskAndHandlerExcludeEachOther : Obligations.MaskAndHandlerExcludeEachOther :=
  ⟨fun _ hmask => ⟨nextMove_ne_irqEnter_of_masked hmask, fun _ => exec_irqEnter_ne_next_of_masked hmask⟩,
    fun _ hirq => ⟨nextMove_ne_poll_of_handler hirq, fun _ _ hi => exec_ne_next_of_handler hirq hi⟩⟩

/-- Settles O59: the interrupt stays pending through the section, and after CS_EXIT its proposal is enabled. -/
theorem maskedInterruptIsServedAfterTheSection : Obligations.MaskedInterruptIsServedAfterTheSection := by
  refine ⟨fun _ _ => pending_kept_of_masked, fun s rest h hl hm => ?_⟩
  obtain ⟨u, hraise, hu, hpc⟩ := pendingInSection_raised h hl hm
  obtain ⟨t, hsection, ht, hend⟩ := pendingInSection_run hu (congrArg stepsToUnmask hpc)
  have hrun : runSteps (stepsToUnmask s.seqPc + 1) s = .next t := runSteps_cons hraise hsection
  have hmask : t.mask = false := by
    rw [← Bool.not_eq_true, ht.inv.sequencer.mask_critical, hend]
    decide
  have hmoves : t.moves = .irqEnter :: rest := by simpa [hend, stepsToUnmask] using ht.proposed
  have hrunning := running_of_inv ht.inv (by rw [hend]; decide)
  have hserve := step_irqEnter ((irqEnabled_iff t).2 ⟨ht.pending, hmask, ht.idle, hrunning⟩) hmoves
  have hserved := (runSteps_of_next (b := 1) hrun).trans (runSteps_cons hserve rfl)
  exact ⟨t, t.draws + 1, hrun, ht.pending, ht.idle, hmask, hend, hserved⟩

end Sys2Proof.Proofs
end

section
/-!
PROOFS. The reset state (70 R260): its values, and that it meets the invariants of the block under every scripted environment.
-/

namespace Sys2Proof.Machine

theorem reportBytes_zero : reportBytes 0 = List.replicate 8 0x00 := by decide

/-- The zero report of reset is the report of no modifier and six empty slots (92 D14). -/
theorem reportShape_zero (c : Cfg) : ReportShape c 0 := ⟨0x00, filled 0x00, slotShape_empty c, by decide⟩

/-- The first scan begins with every line released and no column sampled (40 R130). -/
theorem inv_resetWith (w : WfCfg) : Inv (State.resetWith w) where
  sequencer :=
    { column_range := ncols_pos w
      cell_range := Nat.zero_le _
      boot_phase := fun _ => rfl
      loop_phase := by simp [State.resetWith, loopLabels]
      mask_critical := by simp [State.resetWith, criticalLabels]
      handler_unmasked := fun _ => rfl
      booted_at_enter := by simp [State.resetWith] }
  scanner :=
    { levels := rfl
      sampled := by simp [State.resetWith, columnsSampled] }
  pipeline :=
    { deb_written := fun hl => absurd (show Label.sAssert ∈ scanLabels by decide) hl
      layer_written := by simp [State.resetWith]
      modifier_written := by simp [State.resetWith]
      slots_written := by simp [State.resetWith]
      slots_shape := by simp [State.resetWith]
      rep_written := by simp [State.resetWith] }
  timer := ⟨fun _ => rfl, by simp [State.resetWith], by simp [State.resetWith], by simp [State.resetWith]⟩

theorem reportInv_resetWith (w : WfCfg) : ReportInv (State.resetWith w) where
  slots_shape := by simp [State.resetWith]
  rep_shape := by simp [State.resetWith]
  bridge_shape := reportShape_zero _
  sent_shape := reportShape_zero _

/-- Nothing has been pushed and the timer has not been armed. -/
theorem pushInv_resetWith (w : WfCfg) : PushInv (State.resetWith w) where
  one_a_period es hes := by rw [List.prefix_nil.1 hes]; decide
  armed_first es hes _ := by rw [List.prefix_nil.1 hes]; rfl
  boot_unarmed := by simp [State.resetWith]
  not_yet _ := rfl

/-- The invariants do not speak of the scripted environment. -/
theorem invariants_withEnv {s : State} (h : Inv s) (hreport : ReportInv s) (hpush : PushInv s) (moves : List Move)
    (rows : List (Column s.cfg)) (pushes : List PushRes) :
    Inv (s.withEnv moves rows pushes) ∧ ReportInv (s.withEnv moves rows pushes) ∧ PushInv (s.withEnv moves rows pushes) :=
  ⟨{ sequencer := { h.sequencer with }, scanner := { h.scanner with }, pipeline := { h.pipeline with },
     timer := { h.timer with } },
    { hreport with }, { hpush with }⟩

end Sys2Proof.Machine

namespace Sys2Proof.Proofs

open Sys2Proof.Machine

/-- Settles O11: the registers hold what `State.resetWith` writes, and the bytes of the zero report are zero. -/
theorem resetValues : Obligations.ResetValues := by
  intro w
  exact ⟨rfl, rfl, rfl, rfl, rfl, rfl, rfl, rfl, rfl, reportBytes_zero, reportBytes_zero, rfl, rfl, rfl, rfl, rfl, rfl, rfl, rfl,
    rfl, rfl, rfl⟩

/-- Settles O45: the reset state meets each invariant, and scripting the environment changes none of their registers. -/
theorem resetMeetsTheInvariants : Obligations.ResetMeetsTheInvariants :=
  ⟨inv_resetWith exWfCfg,
    fun w => invariants_withEnv (inv_resetWith w) (reportInv_resetWith w) (pushInv_resetWith w)⟩

end Sys2Proof.Proofs
end

section
/-!
PROOFS. RAW between the scanner and the filter (41_debounce_interface R142, 70 R269): no operation but DBF_PUMP reads RAW, shown
by two runs that differ in RAW alone.
-/

namespace Sys2Proof.Machine

/-- The state with RAW overwritten. -/
def State.setRaw (s : State) (raw : RawOf s.cfg) : State := { s with raw := raw }

/-- The state with no column of RAW written: the view in which two states that differ in RAW alone are the same. -/
def State.dropRaw (s : State) : State := s.setRaw (rawUnwritten s.cfg)

section OtherRaw

variable (s : State) (raw : RawOf s.cfg)

@[simp] theorem setRaw_modifier : (s.setRaw raw).modifier = s.modifier := rfl
@[simp] theorem setRaw_slots : (s.setRaw raw).slots = s.slots := rfl
@[simp] theorem setRaw_rep : (s.setRaw raw).rep = s.rep := rfl
@[simp] theorem setRaw_tmrExpired : (s.setRaw raw).tmrExpired = s.tmrExpired := rfl

theorem readBoot_setRaw :
    readDeb (s.setRaw raw).deb (s.setRaw raw).cfg.val.bootPos (bootPos_inside _) =
      readDeb s.deb s.cfg.val.bootPos (bootPos_inside _) := rfl

theorem readFn_setRaw :
    readDeb (s.setRaw raw).deb (s.setRaw raw).cfg.val.fnPos (fnPos_inside _) =
      readDeb s.deb s.cfg.val.fnPos (fnPos_inside _) := rfl

/-- Two runs that differ in RAW alone end in the same way, in states that differ in RAW at most (70 R269). RAW is in no guard, and
ROW_SAMPLE writes it without reading; in each case what is left is the split on the registers the operation does read. -/
theorem exec_setRaw {i : Instr} (hi : i ≠ .dbfPump) :
    mapNext State.dropRaw (exec i (s.setRaw raw)) = mapNext State.dropRaw (exec i s) := by
  cases i
  case dbfPump => exact absurd rfl hi
  case irqEnter => exact mapNext_ite_congr (c := irqEnabled s = true) rfl
  case getReportInput | setReportLed | getDescriptor | irqExit => exact mapNext_inHandler_congr rfl rfl rfl
  case getReportUnsup | setReportUnsup => exact mapNext_inHandler_congr rfl rfl (mapNext_selected_congr rfl)
  case encCellSkip | encCellEmpty | encCellSent | encCellKey | encCellOvf =>
    exact mapNext_encCell_congr rfl rfl rfl rfl fun form => by cases form <;> rfl
  case encCellMod =>
    refine mapNext_encCell_congr rfl rfl rfl rfl fun form => ?_
    cases form
    case modifier mask => simp only [setRaw_modifier]; cases s.modifier <;> rfl
    all_goals rfl
  all_goals refine mapNext_issuedAt_congr rfl rfl rfl ?_
  case settle | colNext | bootEnter | encInit | csEnter | csExit => rfl
  case colAssert | colDeassert | rowSample => exact mapNext_ite_congr (c := s.seqC < s.cfg.val.ncols) rfl
  case tmrArmFirst | tmrArmPeriod => exact mapNext_selected_congr rfl
  case pushOk | pushWouldBlock | pushHard => exact mapNext_pushChanged_congr rfl rfl fun _ => rfl
  case tmrWait => cases he : s.tmrExpired <;> simp only [setRaw_tmrExpired, he] <;> rfl
  case bootCheck => rw [readBoot_setRaw]; cases readDeb s.deb _ _ <;> rfl
  case layerSel => rw [readFn_setRaw]; cases readDeb s.deb _ _ <;> rfl
  case encDone => simp only [setRaw_modifier, setRaw_slots]; cases s.modifier <;> cases s.slots <;> rfl
  case commit => rw [setRaw_rep]; cases s.rep <;> rfl
  case pushSuppress =>
    rw [setRaw_rep]
    cases s.rep with
    | none => rfl
    | some r => exact mapNext_selected_congr rfl

end OtherRaw

/-- The pump hands RAW over (41 R142). -/
theorem raw_unwritten_of_dbfPump {s t : State} (he : exec .dbfPump s = .next t) : t.raw = rawUnwritten t.cfg := by
  obtain ⟨-, m, -, rfl⟩ := exec_next_result he
  rfl

end Sys2Proof.Machine

namespace Sys2Proof.Proofs

open Sys2Proof.Machine

/-- Settles O43: the two runs are those of `exec_setRaw`, and the pump's next state is written out by ExecResult. -/
theorem onlyThePumpReadsRaw : Obligations.OnlyThePumpReadsRaw :=
  ⟨fun _ s raw hi => exec_setRaw s raw hi, fun _ _ he => raw_unwritten_of_dbfPump he⟩

end Sys2Proof.Proofs
end

section
/-!
PROOFS. Pushes and timer periods (70 R272): what an operation adds to the events, and that between two arms of the timer, and
after the last, there is one push at most.
-/

namespace Sys2Proof.Machine

/-! ### Events and the count of pushes -/

/-- An event that is neither a push nor an arm of the timer. -/
def Uncounted (e : Event) : Prop := isArm e = false ∧ isPush e = false

@[simp] theorem isArm_tmrArm (period : Nat) : isArm (.tmrArm period) = true := rfl
@[simp] theorem isArm_push (r : Report) (res : PushRes) : isArm (.push r res) = false := rfl
@[simp] theorem isPush_push (r : Report) (res : PushRes) : isPush (.push r res) = true := rfl

/-- What 70 R272 asks of the events alone: at no point two pushes since the last arm, and no push before the first. -/
structure OnePushPerArm (es : List Event) : Prop where
  one_a_period : ∀ p, p <+: es → pushesSinceArm p ≤ 1
  armed_first : ∀ p, p <+: es → p.countP isArm = 0 → p.countP isPush = 0

theorem pushInv_iff (s : State) :
    PushInv s ↔
      OnePushPerArm s.events ∧ (s.seqBoot = true ↔ s.events.countP isArm = 0) ∧
      (s.seqPc ∉ [Label.lCsExit, .lRearm] → pushesSinceArm s.events = 0) :=
  ⟨fun h => ⟨⟨h.one_a_period, h.armed_first⟩, h.boot_unarmed, h.not_yet⟩,
    fun ⟨⟨hone, harmed⟩, hboot, hyet⟩ => ⟨hone, harmed, hboot, hyet⟩⟩

/-- The only new point in time that one more event gives is the end. -/
theorem onePushPerArm_concat {es : List Event} {e : Event} (h : OnePushPerArm es) (hone : pushesSinceArm (es ++ [e]) ≤ 1)
    (harmed : (es ++ [e]).countP isArm = 0 → (es ++ [e]).countP isPush = 0) : OnePushPerArm (es ++ [e]) where
  one_a_period p hp := by
    obtain rfl | hp := List.prefix_concat_iff.1 hp
    · exact hone
    · exact h.one_a_period p hp
  armed_first p hp := by
    obtain rfl | hp := List.prefix_concat_iff.1 hp
    · exact harmed
    · exact h.armed_first p hp

theorem onePushPerArm_arm {es : List Event} (h : OnePushPerArm es) (period : Nat) : OnePushPerArm (es ++ [.tmrArm period]) :=
  onePushPerArm_concat h (by simp) (by simp)

/-- The timer has been armed, and there has been no push since. -/
theorem onePushPerArm_push {es : List Event} (h : OnePushPerArm es) (hyet : pushesSinceArm es = 0)
    (harmed : es.countP isArm ≠ 0) (r : Report) (res : PushRes) : OnePushPerArm (es ++ [.push r res]) := by
  have harms : (es ++ [Event.push r res]).countP isArm = es.countP isArm := by simp [List.countP_append]
  exact onePushPerArm_concat h (by simp [hyet]) fun hnone => absurd (harms ▸ hnone) harmed

theorem onePushPerArm_uncounted {es new : List Event} (h : OnePushPerArm es) (hnew : ∀ e ∈ new, Uncounted e) :
    OnePushPerArm (es ++ new) := by
  induction new generalizing es with
  | nil => simpa using h
  | cons e new ih =>
    obtain ⟨⟨harm, hpush⟩, hnew⟩ := List.forall_mem_cons.1 hnew
    have hone := h.one_a_period es List.prefix_rfl
    have harmed := h.armed_first es List.prefix_rfl
    have he : OnePushPerArm (es ++ [e]) :=
      onePushPerArm_concat h (by simpa [harm, hpush] using hone) (by simpa [harm, hpush] using harmed)
    simpa using ih he hnew

theorem pushesSinceArm_uncounted (es : List Event) {new : List Event} (hnew : ∀ e ∈ new, Uncounted e) :
    pushesSinceArm (es ++ new) = pushesSinceArm es := by
  induction new generalizing es with
  | nil => simp
  | cons e new ih =>
    obtain ⟨⟨harm, hpush⟩, hnew⟩ := List.forall_mem_cons.1 hnew
    simpa [harm, hpush] using ih (es ++ [e]) hnew

theorem countP_isArm_uncounted (es : List Event) {new : List Event} (hnew : ∀ e ∈ new, Uncounted e) :
    (es ++ new).countP isArm = es.countP isArm := by
  have hnone : new.countP isArm = 0 := List.countP_eq_zero.2 fun e he => by simp [(hnew e he).1]
  rw [List.countP_append, hnone, Nat.add_zero]

/-! ### What an operation adds to the events -/

/-- Only PUSH pushes and only TMR_ARM arms the timer (45 R202, R207, R213). -/
theorem exec_events_uncounted {i : Instr} {s t : State} (he : exec i s = .next t) (hpush : i.uop ≠ .push)
    (harm : i.uop ≠ .tmrArm) : ∃ new, t.events = s.events ++ new ∧ ∀ e ∈ new, Uncounted e := by
  have hx := exec_next_result he
  have silent (hevents : t.events = s.events) : ∃ new, t.events = s.events ++ new ∧ ∀ e ∈ new, Uncounted e :=
    ⟨[], by simp [hevents], by simp⟩
  cases i
  case tmrArmFirst | tmrArmPeriod => exact absurd rfl harm
  case pushSuppress | pushOk | pushWouldBlock | pushHard => exact absurd rfl hpush
  case colAssert | colDeassert => obtain ⟨-, -, rfl⟩ := hx; exact ⟨_, rfl, by simp [Uncounted, isArm, isPush]⟩
  case dbfPump => obtain ⟨-, _, -, rfl⟩ := hx; exact ⟨_, rfl, by simp [Uncounted, isArm, isPush]⟩
  case bootEnter => obtain ⟨-, rfl⟩ := hx; exact ⟨_, rfl, by simp [Uncounted, isArm, isPush]⟩
  case setReportLed => obtain ⟨-, rfl⟩ := hx; exact ⟨_, rfl, by simp [setterEvents, Uncounted, isArm, isPush]⟩
  case settle => obtain ⟨-, rfl⟩ | ⟨-, rfl⟩ := hx <;> exact silent rfl
  case tmrWait => obtain ⟨-, ⟨-, rfl⟩ | ⟨-, rfl⟩⟩ := hx <;> exact silent rfl
  case colNext | encInit | csEnter | csExit | getReportInput | getDescriptor | irqExit =>
    obtain ⟨-, rfl⟩ := hx; exact silent rfl
  case rowSample | encCellSkip | encCellEmpty | encCellOvf | getReportUnsup | setReportUnsup =>
    obtain ⟨-, -, rfl⟩ := hx; exact silent rfl
  case bootCheck | layerSel | encCellSent | commit => obtain ⟨-, _, -, rfl⟩ := hx; exact silent rfl
  case encCellKey => obtain ⟨-, _, _, -, rfl⟩ := hx; exact silent rfl
  case encCellMod | encDone => obtain ⟨-, _, _, -, -, rfl⟩ := hx; exact silent rfl
  case irqEnter => obtain ⟨-, -, -, -, rfl⟩ := hx; exact silent rfl

/-- From PUSH on, the sequencer stays at L_CS_EXIT and L_REARM until TMR_ARM (45 R211, R213). -/
theorem exec_stays_after_push {i : Instr} {s t : State} (he : exec i s = .next t) (harm : i.uop ≠ .tmrArm)
    (hl : s.seqPc ∈ [Label.lCsExit, .lRearm]) : t.seqPc ∈ [Label.lCsExit, .lRearm] := by
  cases hi : ofIrqContext i with
  | true =>
    have hpc : t.seqPc = s.seqPc := exec_same he .seqPc (by simp [hi])
    rwa [hpc]
  | false =>
    obtain ⟨-, hu⟩ := issued_of_exec he hi
    obtain hl | hl : s.seqPc = .lCsExit ∨ s.seqPc = .lRearm := by simpa using hl
    · have hexit : .csExit = i.uop := by rw [← hu, hl]; rfl
      cases i
      case csExit => obtain ⟨-, rfl⟩ := exec_next_result he; simp
      all_goals cases hexit
    · exact absurd (by rw [← hu, hl]; rfl) harm

/-! ### The invariant -/

/-- The invariant does not speak of the scripted moves. -/
theorem pushInv_useMove {s : State} (h : PushInv s) : PushInv s.useMove := { h with }

/-- A change that neither pushes nor arms and does not leave the labels after PUSH keeps the invariant. -/
theorem pushInv_of_uncounted {s t : State} {new : List Event} (h : PushInv s) (hevents : t.events = s.events ++ new)
    (hnew : ∀ e ∈ new, Uncounted e) (hboot : t.seqBoot = s.seqBoot)
    (hpc : s.seqPc ∈ [Label.lCsExit, .lRearm] → t.seqPc ∈ [Label.lCsExit, .lRearm]) : PushInv t := by
  obtain ⟨hone, hunarmed, hyet⟩ := (pushInv_iff s).1 h
  rw [pushInv_iff, hevents, hboot, pushesSinceArm_uncounted _ hnew, countP_isArm_uncounted _ hnew]
  exact ⟨onePushPerArm_uncounted hone hnew, hunarmed, fun hl => hyet (mt hpc hl)⟩

/-- An arm of the timer starts a period with no push in it. -/
theorem pushInv_of_arm {s t : State} {period : Nat} (h : PushInv s) (hevents : t.events = s.events ++ [.tmrArm period])
    (hboot : t.seqBoot = false) : PushInv t := by
  obtain ⟨hone, -, -⟩ := (pushInv_iff s).1 h
  rw [pushInv_iff, hevents, hboot]
  exact ⟨onePushPerArm_arm hone period, by simp, fun _ => by simp⟩

/-- The call of XPORT.push at L_PUSH is the first of its period, which has begun: the loop runs with the timer armed. -/
theorem pushInv_of_push {s t : State} {r : Report} {res : PushRes} (h : PushInv s) (hinv : Inv s) (hl : s.seqPc = .lPush)
    (hevents : t.events = s.events ++ [.push r res]) (hboot : t.seqBoot = s.seqBoot) (hpc : t.seqPc = .lCsExit) :
    PushInv t := by
  obtain ⟨hone, hunarmed, hyet⟩ := (pushInv_iff s).1 h
  have hloop : s.seqBoot = false := hinv.sequencer.loop_phase (by simp [hl, loopLabels])
  have harmed : s.events.countP isArm ≠ 0 := mt hunarmed.2 (by simp [hloop])
  rw [pushInv_iff, hevents, hboot, hpc]
  exact ⟨onePushPerArm_push hone (hyet (by simp [hl])) harmed r res, by simpa using hunarmed, by simp⟩

theorem exec_push_keeps_pushInv {i : Instr} {s t : State} (hinv : Inv s) (h : PushInv s) (he : exec i s = .next t)
    (hi : i.uop = .push) : PushInv t := by
  have hx := exec_next_result he
  cases i
  case pushSuppress =>
    obtain ⟨-, -, rfl⟩ := hx
    exact pushInv_of_uncounted (new := []) h (by simp) (by simp) rfl (by simp)
  case pushOk | pushWouldBlock => obtain ⟨⟨-, -, hl⟩, r, -, -, rfl⟩ := hx; exact pushInv_of_push h hinv hl rfl rfl rfl
  case pushHard kind =>
    obtain ⟨⟨-, -, hl⟩, r, -, -, rfl⟩ := hx
    have hcall : PushInv ((s.pushCall r (.hard kind)).goto .lCsExit) := pushInv_of_push h hinv hl rfl rfl rfl
    exact pushInv_of_uncounted hcall rfl (by simp [Uncounted, isArm, isPush]) rfl id
  all_goals cases hi

theorem exec_tmrArm_keeps_pushInv {i : Instr} {s t : State} (h : PushInv s) (he : exec i s = .next t)
    (hi : i.uop = .tmrArm) : PushInv t := by
  have hx := exec_next_result he
  cases i
  case tmrArmFirst => obtain ⟨-, -, rfl⟩ := hx; exact pushInv_of_arm h rfl rfl
  case tmrArmPeriod => obtain ⟨-, hloop, rfl⟩ := hx; exact pushInv_of_arm h rfl hloop
  all_goals cases hi

theorem exec_keeps_pushInv {i : Instr} {s t : State} (hinv : Inv s) (h : PushInv s) (he : exec i s = .next t) : PushInv t := by
  by_cases hpush : i.uop = .push
  · exact exec_push_keeps_pushInv hinv h he hpush
  by_cases harm : i.uop = .tmrArm
  · exact exec_tmrArm_keeps_pushInv h he harm
  obtain ⟨new, hevents, hnew⟩ := exec_events_uncounted he hpush harm
  have hboot : t.seqBoot = s.seqBoot := exec_same he .seqBoot (by rintro rfl; exact harm rfl)
  exact pushInv_of_uncounted h hevents hnew hboot (exec_stays_after_push he harm)

end Sys2Proof.Machine

namespace Sys2Proof.Proofs

open Sys2Proof.Machine

/-- Settles O49: PUSH is the only operation that pushes, it runs once before the sequencer comes to the re-arm, and the moves of
the environment add no event. -/
theorem stepKeepsOnePushPerPeriod : Obligations.StepKeepsOnePushPerPeriod := by
  intro s t hinv h hstep
  obtain ⟨-, ⟨-, rfl⟩ | ⟨-, rfl⟩ | ⟨bytes, i, -, -, he⟩⟩ := step_next_cases hstep
  · exact { h with }
  · exact { h with }
  · exact exec_keeps_pushInv (inv_useMove hinv) (pushInv_useMove h) he

end Sys2Proof.Proofs
end
